-- ==== Sys2Proof/Word.lean ====
section
/-! DEFINITION. The widths of the block's values (spec/00_scope.md R5, R6): every value is unsigned. -/

namespace Sys2Proof

/-- A byte (R6). -/
abbrev Byte := BitVec 8

/-- A message length, a buffer size, the `VAL` output: `LEN_W` = 32 bits (R5). -/
abbrev Word := BitVec 32

/-- An ATQA: `ATQA_W` = 16 bits (R5). -/
abbrev Atqa := BitVec 16

/-- The request word `REQ`: `REQ_W` = 136 bits (R5, R60). -/
abbrev ReqWord := BitVec 136

/-- The response word `RSP`: `RSP_W` = 48 bits (R5, R61). -/
abbrev RspWord := BitVec 48

/-- The formatter's output `STR`: 44 character cells of 8 bits (R72). -/
abbrev StrWord := BitVec 352

end Sys2Proof
end

