-- ==== Sys2Proof/Config.lean ====
section
/-! DEFINITION. What an implementation of the block fixes (spec/00_scope.md R5): the one open parameter and the
sizes of the operands. The spec leaves no value free, so there is no free value here. -/

namespace Sys2Proof

/-- The elaboration-time parameters that R5 leaves OPEN. No request can read or change them (R24).
DESIGN CHOICE, safe: it is carried in `State` so that every claim speaks of both values (log 2). -/
structure Config where
  /-- `HAS_FMT`: is the auxiliary formatter unit present (R5, D15). -/
  hasFmt : Bool
  deriving DecidableEq, Repr

/-- The parameters at R5's defaults: `HAS_FMT` is "OPEN, default false". -/
def Config.standard : Config := { hasFmt := false }

/-- `BLOCK_SIZE`: bytes of the TLVDEC block operand (R5, R41). -/
def blockSize : Nat := 16

/-- `FMT_MAX`: data bytes of format F, the largest count the formatter accepts (R5, R63). -/
def fmtMax : Nat := 15

end Sys2Proof
end

