-- ==== Sys2Proof/Syntax.lean ====
section
/-! DEFINITION. The operations of the block: one constructor per row of spec/opcode_table.json
(spec/30_encoding.md R62), its operands the named fields of the row's format (R63), in field order. -/

namespace Sys2Proof

/-- One decoded request. Ignored argument bits (R65) are no operands. -/
inductive Instr where
  /-- CLASSIFY, format C (R100). -/
  | classify (uidLen : Byte) (atqa : Atqa) (sak : Byte)
  /-- GUESS, format G (R101). -/
  | guess (uidLen : Byte)
  /-- TLVDEC, format B: the sixteen bytes of the block operand, offset 0 first (R110, R41). -/
  | tlvdec (blk : List Byte)
  /-- ULSIZE, format L (R121). -/
  | ulsize (messageLength : Word)
  /-- MCSIZE, format L (R122). -/
  | mcsize (messageLength : Word)
  /-- ISFIRST, format N (R130). -/
  | isfirst (n : Byte)
  /-- ISTRAIL, format N (R131). -/
  | istrail (n : Byte)
  /-- FMTUID, format F: `len` and all fifteen data bytes, those at or beyond `len` too (R140). -/
  | fmtuid (len : Byte) (data : List Byte)
  /-- FMTBYTES, format F (R141). -/
  | fmtbytes (len : Byte) (data : List Byte)
  deriving DecidableEq, Repr

end Sys2Proof
end

