-- ==== Sys2Proof/WellFormed.lean ====
section
/-! DEFINITION. Which terms of `Instr` are requests: the byte sequences have the length their format gives them
(spec/30_encoding.md R63). Every other operand has its field's width by its type. -/

namespace Sys2Proof

/-- The instruction's byte sequences have exactly the length of their format: 16 bytes of block (R41),
15 data bytes (R63 format F). Every value of `len` is a request: 0 and 16 to 255 are answered by a failure (R143, R144). -/
def Instr.wellFormed : Instr → Bool
  | .classify _ _ _ => true
  | .guess _ => true
  | .tlvdec blk => blk.length == blockSize
  | .ulsize _ => true
  | .mcsize _ => true
  | .isfirst _ => true
  | .istrail _ => true
  | .fmtuid _ data => data.length == fmtMax
  | .fmtbytes _ data => data.length == fmtMax

end Sys2Proof
end

