-- ==== Sys2Proof/Decode.lean ====
section
/-! DEFINITION. Decoding a request word and encoding an instruction (spec/30_encoding.md R60 to R66), with the
byte forms of spec/00_scope.md R7. -/

namespace Sys2Proof

/-! ### Byte sequences (R7): byte `j` is bits `[8j+7:8j]` of the word -/

/-- The number a byte sequence spells, byte 0 least significant (R7, R43). -/
def packBytes : List Byte → Nat
  | [] => 0
  | b :: bs => b.toNat + 256 * packBytes bs

/-- The first `n` bytes of a number, byte 0 least significant (R7, R43). -/
def unpackBytes : Nat → Nat → List Byte
  | 0, _ => []
  | n + 1, w => BitVec.ofNat 8 w :: unpackBytes n (w / 256)

/-! ### The fields of the six formats (R63), at their `REQ` bit positions -/

/-- `OP` = `REQ[7:0]` (R60). -/
def opField (req : ReqWord) : Byte := req.extractLsb' 0 8

/-- `uid_len` of formats C and G, `n` of format N, `len` of format F: `REQ[15:8]`. -/
def byteField (req : ReqWord) : Byte := req.extractLsb' 8 8

/-- `atqa` of format C: `REQ[31:16]`. -/
def atqaField (req : ReqWord) : Atqa := req.extractLsb' 16 16

/-- `sak` of format C: `REQ[39:32]`. -/
def sakField (req : ReqWord) : Byte := req.extractLsb' 32 8

/-- `message_length` of format L: `REQ[39:8]`. -/
def lengthField (req : ReqWord) : Word := req.extractLsb' 8 32

/-- `blk[k]` = `REQ[8k+15:8k+8]` of format B, k = 0..15. -/
def blockField (req : ReqWord) : List Byte :=
  (List.range blockSize).map fun k => req.extractLsb' (8 * k + 8) 8

/-- `data[k]` = `REQ[8k+23:8k+16]` of format F, k = 0..14. -/
def dataField (req : ReqWord) : List Byte :=
  (List.range fmtMax).map fun k => req.extractLsb' (8 * k + 16) 8

/-! ### Decoding -/

/-- Why a word or a byte sequence is no operation. -/
inductive Reject where
  /-- R66: the opcode is assigned to no row of R62. -/
  | unassignedOpcode (op : Byte)
  /-- R60, R73: a request is 17 bytes, no more and no fewer. -/
  | notRequestLength (bytes : Nat)
  deriving DecidableEq, Repr

/-- The opcode map of R62; all eight bits of `OP` are compared. It lists the nine rows of the table.
The rows 0x08 and 0x09 exist only if `HAS_FMT` (R66): their meanings check the parameter (log 2). -/
def decode (req : ReqWord) : Except Reject Instr :=
  if opField req = 0x01#8 then .ok (.classify (byteField req) (atqaField req) (sakField req))
  else if opField req = 0x02#8 then .ok (.guess (byteField req))
  else if opField req = 0x03#8 then .ok (.tlvdec (blockField req))
  else if opField req = 0x04#8 then .ok (.ulsize (lengthField req))
  else if opField req = 0x05#8 then .ok (.mcsize (lengthField req))
  else if opField req = 0x06#8 then .ok (.isfirst (byteField req))
  else if opField req = 0x07#8 then .ok (.istrail (byteField req))
  else if opField req = 0x08#8 then .ok (.fmtuid (byteField req) (dataField req))
  else if opField req = 0x09#8 then .ok (.fmtbytes (byteField req) (dataField req))
  else .error (.unassignedOpcode (opField req))

/-- Decoding the byte form of a request (R7, R60): 17 bytes, `OP` first. Total on any bytes. -/
def decodeBytes (bs : List Byte) : Except Reject Instr :=
  if bs.length = 17 then decode (BitVec.ofNat 136 (packBytes bs))
  else .error (.notRequestLength bs.length)

/-! ### Encoding -/

/-- The opcode of each row of R62. -/
def opcode : Instr → Byte
  | .classify _ _ _ => 0x01#8
  | .guess _ => 0x02#8
  | .tlvdec _ => 0x03#8
  | .ulsize _ => 0x04#8
  | .mcsize _ => 0x05#8
  | .isfirst _ => 0x06#8
  | .istrail _ => 0x07#8
  | .fmtuid _ _ => 0x08#8
  | .fmtbytes _ _ => 0x09#8

/-- `ARG[127:0]` of each row, by its format in R63; ignored bits (R65) are written 0. -/
def argument : Instr → BitVec 128
  | .classify uidLen atqa sak => 0#96 ++ sak ++ atqa ++ uidLen
  | .guess uidLen => 0#120 ++ uidLen
  | .tlvdec blk => BitVec.ofNat 128 (packBytes blk)
  | .ulsize messageLength => 0#96 ++ messageLength
  | .mcsize messageLength => 0#96 ++ messageLength
  | .isfirst n => 0#120 ++ n
  | .istrail n => 0#120 ++ n
  | .fmtuid len data => BitVec.ofNat 120 (packBytes data) ++ len
  | .fmtbytes len data => BitVec.ofNat 120 (packBytes data) ++ len

/-- The request word of an instruction: `ARG` above `OP` (R60). -/
def encode (i : Instr) : ReqWord := argument i ++ opcode i

/-- The byte form of an instruction: 17 bytes, `OP` first (R60). -/
def encodeBytes (i : Instr) : List Byte := unpackBytes 17 (encode i).toNat

/-! ### The opcode table's numbering -/

/-- The request word that a table word of `nbits` bits stands for: bit 0 of the table is `REQ[0]`, and every bit
above `nbits` is 0. -/
def tableReq (nbits w : Nat) : ReqWord := BitVec.ofNat 136 (w % 2 ^ nbits)

/-- What the decoder reads from a table word, laid out as the 17 bytes of a request. -/
def decodeTableWord (nbits w : Nat) : Option Instr :=
  match decodeBytes (unpackBytes 17 (tableReq nbits w).toNat) with
  | .ok i => some i
  | .error _ => none

end Sys2Proof
end

