-- ==== Sys2Proof/Machine/State.lean ====
section
/-! DEFINITION. The value types that cross the block's interface (spec/00_scope.md R9, spec/10_state.md R28), the
state (the port values and the open parameter: the block stores nothing, R20 to R27), and the reasons a step
can stop (there are none, R160). -/

namespace Sys2Proof.Machine

/-- The closed enumeration of tag families (R9, R28 a). -/
inductive TagType where
  | unknown
  | type2
  | mifareClassic
  | mifareUltralight
  | mifareDESFire
  deriving DecidableEq, Repr

/-- The outcome of one request, as `STATUS` names it (R68). No other status is ever produced. -/
inductive Status where
  | ok
  | notFound
  | malformed
  | illegalOp
  | emptyInput
  | tooLong
  deriving DecidableEq, Repr

/-- The discriminated result of the TLV parser (R9): a failure has no payload. -/
inductive TlvResult where
  | ok (messageLength : Word) (messageStartIndex : Byte)
  | notFound
  | malformed
  deriving DecidableEq, Repr

/-- One response: the fields of `RSP` (R61) and the formatter's two outputs (R72).
DESIGN CHOICE, safe: `strLen` and `str` are held, at 0, in a block without the formatter too (log 9). -/
structure Response where
  /-- `STATUS`, `RSP[7:0]`. -/
  status : Status
  /-- `VAL`, `RSP[39:8]`. -/
  val    : Word
  /-- `IDX`, `RSP[47:40]`. -/
  idx    : Byte
  /-- `STR_LEN`, exists only if `HAS_FMT` (R72). -/
  strLen : Byte
  /-- `STR`, exists only if `HAS_FMT` (R72). -/
  str    : StrWord
  deriving DecidableEq, Repr

/-- What stands on the block's ports, and the parameter it was built with. The block itself stores nothing (R20):
DESIGN CHOICE, safe, the host's interface asks for a state type (log 1). -/
structure State where
  /-- The elaboration-time parameters (R5). -/
  cfg : Config
  /-- The request port `REQ` (R60), driven by the host. -/
  req : ReqWord
  /-- The response outputs (R61, R72), driven by the block. -/
  rsp : Response
  deriving DecidableEq, Repr

/-- Reasons a step stops with a fault: NONE. R160: "A model's `step` is a total function and has neither a stuck
outcome nor a divergent one"; every failure is a response (R161). No constructor, so nothing can raise one: safe. -/
inductive Fault where
  deriving DecidableEq, Repr

/-- Reasons a step is refused. -/
inductive Refusal where
  /-- The host's reason for an instruction without a meaning. Nothing raises it: every row has its meaning. Safe. -/
  | notModelled (mnemonic : String)
  deriving DecidableEq, Repr

/-- The host drives a word onto the request port (R182, R184). -/
def State.setReq (s : State) (w : ReqWord) : State := { s with req := w }

/-- The block drives a response onto its outputs (R61). -/
def State.setRsp (s : State) (r : Response) : State := { s with rsp := r }

/-- Right after reset. There is no reset input and no reset value (R29, R180). The parameter is at R5's default.
DESIGN CHOICE, unsafe: the undriven request port reads 0 (log 3). DEDUCED from R29 and R181, safe: the outputs are
the answer to that word, `ILLEGAL_OP` (log 4). -/
def State.reset : State where
  cfg := Config.standard
  req := 0#136
  rsp := { status := .illegalOp, val := 0#32, idx := 0#8, strLen := 0#8, str := 0#352 }

end Sys2Proof.Machine
end

