-- ==== Sys2Proof/Machine/Flags.lean ====
section
/-! DEFINITION. The block holds no flags (spec/10_state.md R23). What it has instead are the codes its results
carry on the response word (spec/30_encoding.md R61, R67 to R69), which stand here. -/

namespace Sys2Proof.Machine

/-- The `STATUS` codes (R68). -/
def Status.code : Status → Byte
  | .ok => 0x00#8
  | .notFound => 0x01#8
  | .malformed => 0x02#8
  | .illegalOp => 0x03#8
  | .emptyInput => 0x04#8
  | .tooLong => 0x05#8

/-- The TagType codes on `VAL` (R67). -/
def TagType.code : TagType → Word
  | .unknown => 0#32
  | .type2 => 1#32
  | .mifareClassic => 2#32
  | .mifareUltralight => 3#32
  | .mifareDESFire => 4#32

/-- Booleans on `VAL` (R69). -/
def boolCode (b : Bool) : Word := if b then 1#32 else 0#32

/-- The response word `RSP[47:0]`: `IDX`, `VAL`, `STATUS` from the top down (R61). -/
def Response.word (r : Response) : RspWord := r.idx ++ r.val ++ r.status.code

/-- The response as bytes: `STATUS`, then `VAL` least significant byte first, then `IDX` (R61). -/
def Response.bytes (r : Response) : List Byte := unpackBytes 6 r.word.toNat

/-- Character cell `j` of `STR`: `STR[8j+7:8j]` (R72). -/
def Response.cell (r : Response) (j : Nat) : Byte := r.str.extractLsb' (8 * j) 8

/-- The formatter's outputs `STR_LEN` and `STR` as the host sees them: present only if `HAS_FMT` (R72). -/
def State.strPort (s : State) : Option (Byte × StrWord) :=
  if s.cfg.hasFmt then some (s.rsp.strLen, s.rsp.str) else none

end Sys2Proof.Machine
end

