-- ==== Sys2Proof/Machine/Ops.lean ====
section
/-! DEFINITION. The operations every meaning shares: ending a request with a result or a failure
(spec/00_scope.md R8 `return` and `raise`, spec/60_exceptions.md R164), the rounding helper (spec/42_bufsize.md
R120), and the constants that spec/00_scope.md R5 fixes. -/

namespace Sys2Proof.Machine

/-! ### The constants of R5 -/

/-- `TLV_TAG_NDEF`. -/
def tlvTagNdef : Byte := 0x03#8
/-- `TLV_PAD`. -/
def tlvPad : Byte := 0x00#8
/-- `TLV_LONG_ESCAPE`. -/
def tlvLongEscape : Byte := 0xFF#8
/-- `SHORT_HDR`. -/
def shortHdr : Nat := 2
/-- `LONG_HDR`. -/
def longHdr : Nat := 4
/-- `UL_READ_UNIT` (C3). -/
def ulReadUnit : Nat := 4
/-- `BLOCK_SIZE` as the Classic rounding unit. -/
def mcRoundUnit : Nat := 16
/-- `UL_OVERHEAD`. -/
def ulOverhead : Word := 3#32
/-- `MC_SHORT_OVERHEAD`. -/
def mcShortOverhead : Word := 3#32
/-- `MC_LONG_OVERHEAD`: 4, as C2 resolves. UNVERIFIED, unsafe: the document's own gloss gives 5 (log 6). -/
def mcLongOverhead : Word := 4#32
/-- `LONG_THRESHOLD`. -/
def longThreshold : Nat := 255
/-- `GEOM_BOUNDARY`. -/
def geomBoundary : Nat := 128
/-- `SMALL_SECTOR`. -/
def smallSector : Nat := 4
/-- `LARGE_SECTOR`. -/
def largeSector : Nat := 16

/-! ### Ending a request -/

/-- Every request ends here: one response on the outputs and nothing else changed (R20, R160). -/
def respond (r : Response) (s : State) : Host.Outcome State Fault Refusal := .next (s.setRsp r)

/-- `return (v, k)` of R8: `STATUS` = `OK`, `VAL` = v, `IDX` = k; `STR_LEN` and `STR` are 0 (R72). -/
def returnPair (v : Word) (k : Byte) (s : State) : Host.Outcome State Fault Refusal :=
  respond { status := .ok, val := v, idx := k, strLen := 0#8, str := 0#352 } s

/-- `return (v)` of R8: as `return (v, k)` with `IDX` = 0. -/
def returnVal (v : Word) (s : State) : Host.Outcome State Fault Refusal := returnPair v 0#8 s

/-- `return string s` of R140: `STR_LEN` is the number of characters, `VAL` its copy, character `j` is cell `j` of
`STR` and the cells above are 0, `IDX` = 0 (R72). -/
def returnString (chars : List Byte) (s : State) : Host.Outcome State Fault Refusal :=
  respond { status := .ok, val := BitVec.ofNat 32 chars.length, idx := 0#8,
            strLen := BitVec.ofNat 8 chars.length, str := BitVec.ofNat 352 (packBytes chars) } s

/-- `raise` of R8, the counterpart of taking an exception (R164): `STATUS` is the cause, every other output is 0,
nothing is saved anywhere. There is no return from it (R165). -/
def raise (cause : Status) (s : State) : Host.Outcome State Fault Refusal :=
  respond { status := cause, val := 0#32, idx := 0#8, strLen := 0#8, str := 0#352 } s

/-! ### Rounding -/

/-- `roundup(x, u)` (R120). -/
def roundup (x u : Nat) : Nat := if x % u = 0 then x else (x / u + 1) * u

end Sys2Proof.Machine
end

