-- ==== Sys2Proof/Machine/Operands.lean ====
section
/-! DEFINITION. Reading the operands that are byte sequences (spec/20_memory.md R41 to R46, spec/30_encoding.md
R63 format F). Every other operand is a field used at its own width (R64). -/

namespace Sys2Proof.Machine

/-- `MemRead(a, 1)` on the block operand: the byte at offset `a`, none outside the operand (R8, R45, R46). -/
def memRead (blk : List Byte) (a : Nat) : Option Byte := blk[a]?

/-- The big-endian 16-bit value of two bytes of tag data, zero-extended (R42). -/
def bigEndian16 (hi lo : Byte) : Word := (hi ++ lo : BitVec 16).setWidth 32

/-- `data[0 .. len-1]` of format F: the bytes at or beyond `len` are ignored (R63, R65). -/
def dataOperand (len : Byte) (data : List Byte) : List Byte := data.take len.toNat

end Sys2Proof.Machine
end

