-- ==== Sys2Proof/Machine/BlockPos.lean ====
section
/-! DEFINITION. Unit POS (spec/43_blockpos.md): ISFIRST and ISTRAIL, and the MIFARE Classic block-number map they
answer about (spec/20_memory.md R47). The formulas are the source's for every natural number (R134). -/

namespace Sys2Proof.Machine

/-- `is_first_block(n)` (R130). -/
def isFirstBlock (n : Nat) : Bool :=
  if n < geomBoundary then n % smallSector == 0 else n % largeSector == 0

/-- `is_trailer_block(n)` (R131); `n + 1` does not wrap. -/
def isTrailerBlock (n : Nat) : Bool :=
  if n < geomBoundary then (n + 1) % smallSector == 0 else (n + 1) % largeSector == 0

/-- The sector that block `n` lies in (R47). -/
def sectorOf (n : Nat) : Nat :=
  if n < geomBoundary then n / smallSector else 32 + (n - geomBoundary) / largeSector

/-- The position of block `n` in its sector (R47). -/
def positionOf (n : Nat) : Nat := if n < geomBoundary then n % smallSector else n % largeSector

/-- How many blocks a sector holds (R47): 4 in sectors 0 to 31, 16 from 32 on. -/
def sectorLength (sector : Nat) : Nat := if sector < 32 then smallSector else largeSector

/-- ISFIRST (R130). -/
def execIsfirst (n : Byte) (s : State) : Host.Outcome State Fault Refusal :=
  returnVal (boolCode (isFirstBlock n.toNat)) s

/-- ISTRAIL (R131). -/
def execIstrail (n : Byte) (s : State) : Host.Outcome State Fault Refusal :=
  returnVal (boolCode (isTrailerBlock n.toNat)) s

end Sys2Proof.Machine
end

