-- ==== Sys2Proof/Machine/BufSize.lean ====
section
/-! DEFINITION. Unit SIZ (spec/42_bufsize.md): ULSIZE and MCSIZE. The sum and the rounded value are taken modulo
2^32, as R123 says. UNVERIFIED, unsafe: the source is silent past 2^32 and R123 is the spec's decision (log 6). -/

namespace Sys2Proof.Machine

/-- `roundup(raw, u) mod 2^32` of a 32-bit raw size (R120, R121, R122). -/
def roundSize (raw : Word) (u : Nat) : Word := BitVec.ofNat 32 (roundup raw.toNat u)

/-- The Ultralight buffer size (R121). -/
def ulSize (messageLength : Word) : Word := roundSize (messageLength + ulOverhead) ulReadUnit

/-- The Classic header overhead (R122): short form below 255, long form from 255 on. -/
def mcOverhead (messageLength : Word) : Word :=
  if messageLength.toNat < longThreshold then mcShortOverhead else mcLongOverhead

/-- The Classic buffer size (R122). -/
def mcSize (messageLength : Word) : Word := roundSize (messageLength + mcOverhead messageLength) mcRoundUnit

/-- ULSIZE (R121). -/
def execUlsize (messageLength : Word) (s : State) : Host.Outcome State Fault Refusal :=
  returnVal (ulSize messageLength) s

/-- MCSIZE (R122). -/
def execMcsize (messageLength : Word) (s : State) : Host.Outcome State Fault Refusal :=
  returnVal (mcSize messageLength) s

end Sys2Proof.Machine
end

