-- ==== Sys2Proof/Machine/Classify.lean ====
section
/-! DEFINITION. Unit CLS (spec/40_classify.md): CLASSIFY and GUESS. -/

namespace Sys2Proof.Machine

/-- The decision table of R100, "evaluated in order, first match wins"; a row matches all three values exactly. -/
def classifyTag (uidLen : Byte) (atqa : Atqa) (sak : Byte) : TagType :=
  if uidLen = 4#8 ∧ atqa = 0x0004#16 ∧ sak = 0x08#8 then .mifareClassic
  else if uidLen = 4#8 ∧ atqa = 0x0002#16 ∧ sak = 0x18#8 then .mifareClassic
  else if uidLen = 7#8 ∧ atqa = 0x0044#16 ∧ sak = 0x00#8 then .mifareUltralight
  else if uidLen = 7#8 ∧ atqa = 0x0344#16 ∧ sak = 0x20#8 then .mifareDESFire
  else .unknown

/-- The coarse guess of R101. -/
def guessTag (uidLen : Byte) : TagType := if uidLen = 4#8 then .mifareClassic else .type2

/-- CLASSIFY (R100). -/
def execClassify (uidLen : Byte) (atqa : Atqa) (sak : Byte) (s : State) : Host.Outcome State Fault Refusal :=
  returnVal (classifyTag uidLen atqa sak).code s

/-- GUESS (R101). -/
def execGuess (uidLen : Byte) (s : State) : Host.Outcome State Fault Refusal :=
  returnVal (guessTag uidLen).code s

end Sys2Proof.Machine
end

