-- ==== Sys2Proof/Machine/Formatter.lean ====
section
/-! DEFINITION. Unit FMT (spec/44_formatter_aux.md): FMTUID and FMTBYTES, present only if `HAS_FMT`. Characters are
their ASCII codes (R72, R145; UNVERIFIED, safe, log 7). -/

namespace Sys2Proof.Machine

/-- The code of a hexadecimal digit: `0` to `9` from 0x30, `A` to `F` from 0x41 (R142, R72). -/
def hexDigit (d : BitVec 4) : Byte :=
  if d.toNat < 10 then BitVec.ofNat 8 (0x30 + d.toNat) else BitVec.ofNat 8 (0x41 + (d.toNat - 10))

/-- `hex2(b)`: the digit of `b[7:4]`, then the digit of `b[3:0]` (R142). -/
def hex2 (b : Byte) : List Byte := [hexDigit (b.extractLsb' 4 4), hexDigit (b.extractLsb' 0 4)]

/-- The string of R140 and R141: `hex2(data[0])`, then the separator and `hex2(data[k])` for each further byte. -/
def hexString (sep : Byte) : List Byte → List Byte
  | [] => []
  | d :: ds => hex2 d ++ ds.flatMap fun b => sep :: hex2 b

/-- Both formatter operations, from the separator: illegal without the unit (R66), then the two guards (R143,
R144), which look at no data byte, then the string. -/
def formatWith (sep len : Byte) (data : List Byte) (s : State) : Host.Outcome State Fault Refusal :=
  if s.cfg.hasFmt then
    if len = 0#8 then raise .emptyInput s
    else if len.toNat > fmtMax then raise .tooLong s
    else returnString (hexString sep (dataOperand len data)) s
  else raise .illegalOp s

/-- FMTUID: the separator is a hyphen, 0x2D (R140). -/
def execFmtuid (len : Byte) (data : List Byte) (s : State) : Host.Outcome State Fault Refusal :=
  formatWith 0x2D#8 len data s

/-- FMTBYTES: the separator is one space, 0x20 (R141). -/
def execFmtbytes (len : Byte) (data : List Byte) (s : State) : Host.Outcome State Fault Refusal :=
  formatWith 0x20#8 len data s

end Sys2Proof.Machine
end

