-- ==== Sys2Proof/Machine/Tlv.lean ====
section
/-! DEFINITION. Unit TLV (spec/41_tlv.md): TLVDEC, in the two halves of R110's pseudocode, scan and header. -/

namespace Sys2Proof.Machine

/-- The header at tag offset `i` (R110, R112, R113). A byte that the header needs and the block does not have
makes it `Malformed` before any read outside the block (R46, R115). -/
def tlvHeader (blk : List Byte) (i : Nat) : TlvResult :=
  match memRead blk (i + 1) with
  | none => .malformed
  | some l =>
    if l ≠ tlvLongEscape then .ok (l.setWidth 32) (BitVec.ofNat 8 (i + shortHdr))
    else
      match memRead blk (i + 2), memRead blk (i + 3) with
      | some hi, some lo => .ok (bigEndian16 hi lo) (BitVec.ofNat 8 (i + longHdr))
      | _, _ => .malformed

/-- The scan (R111) over the bytes not yet passed, the first of which is at offset `i`: padding is skipped, the first other
byte decides, and the end of the block is `NotFound`. -/
def tlvScan (blk : List Byte) (i : Nat) : List Byte → TlvResult
  | [] => .notFound
  | b :: rest =>
    if b = tlvPad then tlvScan blk (i + 1) rest
    else if b = tlvTagNdef then tlvHeader blk i
    else .malformed

/-- The TLV parser (R110): the scan starts at offset 0. -/
def tlvDecode (blk : List Byte) : TlvResult := tlvScan blk 0 blk

/-- A parser result as the end of the request (R110, R114). -/
def endTlv (r : TlvResult) (s : State) : Host.Outcome State Fault Refusal :=
  match r with
  | .ok messageLength messageStartIndex => returnPair messageLength messageStartIndex s
  | .notFound => raise .notFound s
  | .malformed => raise .malformed s

/-- TLVDEC (R110). -/
def execTlvdec (blk : List Byte) (s : State) : Host.Outcome State Fault Refusal := endTlv (tlvDecode blk) s

end Sys2Proof.Machine
end

