-- ==== Sys2Proof/Machine/Dispatch.lean ====
section
/-! DEFINITION. One arm per operation of spec/30_encoding.md R62. -/

namespace Sys2Proof.Machine

/-- What one decoded request does. -/
def exec (i : Instr) (s : State) : Host.Outcome State Fault Refusal :=
  match i with
  | .classify uidLen atqa sak => Sys2Proof.Machine.execClassify uidLen atqa sak s
  | .guess uidLen => Sys2Proof.Machine.execGuess uidLen s
  | .tlvdec blk => Sys2Proof.Machine.execTlvdec blk s
  | .ulsize messageLength => Sys2Proof.Machine.execUlsize messageLength s
  | .mcsize messageLength => Sys2Proof.Machine.execMcsize messageLength s
  | .isfirst n => Sys2Proof.Machine.execIsfirst n s
  | .istrail n => Sys2Proof.Machine.execIstrail n s
  | .fmtuid len data => Sys2Proof.Machine.execFmtuid len data s
  | .fmtbytes len data => Sys2Proof.Machine.execFmtbytes len data s

end Sys2Proof.Machine
end

