-- ==== Sys2Proof/Machine/Step.lean ====
section
/-! DEFINITION. One step: the block answers the request on its port (spec/70_reset_and_hazards.md R184: "one step
per request"). -/

namespace Sys2Proof.Machine

/-- The spec's `step`, from the request word to the response (R20, R74): the opcode is decoded first, and a
word that is no operation is answered `ILLEGAL_OP` (R66, R163). Nothing is added around `exec`: there is no pc. -/
def step (s : State) : Host.Outcome State Fault Refusal :=
  match decode s.req with
  | .ok i => exec i s
  | .error _ => raise .illegalOp s

/-- The host puts a table word on the request port (log 5). Nothing else changes: the parameter stays as built. -/
def State.withFetchWord (s : State) (nbits w : Nat) : State := s.setReq (tableReq nbits w)

end Sys2Proof.Machine
end

