-- ==== Sys2Proof/Safety.lean ====
section
/-! DEFINITION. What claims call a proper state and a host's run. -/

namespace Sys2Proof.Machine

/-- A response as the spec lets one look: a failure carries no payload (R164), an index is at most 16 (R116),
`STR_LEN` is at most 44 and the cells of `STR` at and above it are 0 (R72). -/
def Response.Proper (r : Response) : Prop :=
  (r.status ≠ .ok → r.val = 0#32 ∧ r.idx = 0#8 ∧ r.strLen = 0#8 ∧ r.str = 0#352) ∧
  r.idx.toNat ≤ 16 ∧ r.strLen.toNat ≤ 44 ∧ r.str.toNat < 2 ^ (8 * r.strLen.toNat)

/-- A state whose outputs are a proper response and, in a block without the formatter, none that only the formatter
can give (R66, R72, R161). -/
def State.Inv (s : State) : Prop :=
  s.rsp.Proper ∧
  (s.cfg.hasFmt = false →
    s.rsp.strLen = 0#8 ∧ s.rsp.str = 0#352 ∧ s.rsp.status ≠ .emptyInput ∧ s.rsp.status ≠ .tooLong)

/-- A host's run (R182, R186): it drives each word in turn onto the port of one block, whose outputs start as they
stand, and reads one response for each. A step that stopped would end the list early. -/
def serve (s : State) : List ReqWord → List Response
  | [] => []
  | w :: ws =>
    match step (s.setReq w) with
    | .next t => t.rsp :: serve t ws
    | .fault _ => []
    | .refused _ => []

end Sys2Proof.Machine
end

