-- ==== Sys2Proof/Certificates/Slice0/Obligations.lean ====
section
/-! DEFINITION. The statements about the block, from the numbered rules of spec/. The right-hand sides are written
from the rules, with literal codes, bit positions and arithmetic, not with the model's own functions. The
bit positions, opcode numbers and status codes are the spec's decisions D2 to D7; where a statement rests on a
choice of this model its docstring names the log entry. -/

namespace Sys2Proof.Claims
open Sys2Proof.Machine

/-- A success response as the rules write it: `STATUS` = `OK`, `VAL`, `IDX`, no string. -/
def okRsp (v : Word) (k : Byte) : Response := { status := .ok, val := v, idx := k, strLen := 0#8, str := 0#352 }

/-- A failure response as R164 writes it: the status, and 0 everywhere else. -/
def failRsp (c : Status) : Response := { status := c, val := 0#32, idx := 0#8, strLen := 0#8, str := 0#352 }

/-- `OP`: `REQ[7:0]` (R60). -/
def op (w : ReqWord) : Nat := (w.extractLsb' 0 8).toNat

/-- The first byte of the block that is not 0x00 is `b`, at offset `i` (R111). -/
def FirstNonPad (blk : List Byte) (i : Nat) (b : Byte) : Prop :=
  blk[i]? = some b ∧ b ≠ 0x00#8 ∧ ∀ k < i, blk[k]? = some 0x00#8

/-- All sixteen bytes of the block are 0x00 (R111). -/
def AllPadding (blk : List Byte) : Prop := ∀ k < 16, blk[k]? = some 0x00#8

/-- The cases of R115 in which a header, its tag at `i`, does not fit in the block. -/
def HeaderPastBlock (blk : List Byte) (i : Nat) : Prop :=
  i = 15 ∨ (i = 14 ∧ blk[15]? = some 0xFF#8) ∨ (i = 13 ∧ blk[14]? = some 0xFF#8)

/-- The rows of CLASSIFY's table that give MifareClassic (R100 rows 1 and 2). -/
def ClassicRows (uidLen : Byte) (atqa : Atqa) (sak : Byte) : Prop :=
  (uidLen = 4#8 ∧ atqa = 0x0004#16 ∧ sak = 0x08#8) ∨ (uidLen = 4#8 ∧ atqa = 0x0002#16 ∧ sak = 0x18#8)

/-- R100 row 3. -/
def UltralightRow (uidLen : Byte) (atqa : Atqa) (sak : Byte) : Prop :=
  uidLen = 7#8 ∧ atqa = 0x0044#16 ∧ sak = 0x00#8

/-- R100 row 4. -/
def DesfireRow (uidLen : Byte) (atqa : Atqa) (sak : Byte) : Prop :=
  uidLen = 7#8 ∧ atqa = 0x0344#16 ∧ sak = 0x20#8

/-- `roundup(x, u)` with R120's two cases written out. -/
def roundedUp (x u : Nat) : Nat := if x % u = 0 then x else (x / u + 1) * u

/-- The header overhead of R122. -/
def classicOverhead (messageLength : Nat) : Nat := if messageLength < 255 then 3 else 4

/-- `is_first_block` as R130 writes it. -/
def FirstFormula (n : Nat) : Prop := (n < 128 ∧ n % 4 = 0) ∨ (128 ≤ n ∧ n % 16 = 0)

/-- `is_trailer_block` as R131 writes it. -/
def TrailerFormula (n : Nat) : Prop := (n < 128 ∧ (n + 1) % 4 = 0) ∨ (128 ≤ n ∧ (n + 1) % 16 = 0)

/-- The ASCII codes of the sixteen hexadecimal digits, `0` to `9` and `A` to `F` (R142, R72). -/
def digitCodes : List Byte :=
  [0x30, 0x31, 0x32, 0x33, 0x34, 0x35, 0x36, 0x37, 0x38, 0x39, 0x41, 0x42, 0x43, 0x44, 0x45, 0x46]

/-- Cell `j` of `STR`: `STR[8j+7:8j]` (R72). -/
def strCell (r : Response) (j : Nat) : Byte := r.str.extractLsb' (8 * j) 8

/-- The response that carries the text of the first `len` data bytes, with the separator's code (R140, R141, R142,
R72): two uppercase digits for each byte, the separator between bytes and none after the last, 3*len - 1 characters,
`VAL` a copy of `STR_LEN`, `IDX` 0, the cells above the text 0. -/
def CarriesText (sep : Byte) (len : Nat) (data : List Byte) (r : Response) : Prop :=
  r.status = .ok ∧ r.strLen.toNat = 3 * len - 1 ∧ r.val.toNat = 3 * len - 1 ∧ r.idx = 0#8 ∧
  (∀ k < len, ∀ b, data[k]? = some b →
    digitCodes[b.toNat / 16]? = some (strCell r (3 * k)) ∧
    digitCodes[b.toNat % 16]? = some (strCell r (3 * k + 1)) ∧
    (k + 1 < len → strCell r (3 * k + 2) = sep)) ∧
  ∀ j, 3 * len - 1 ≤ j → j < 44 → strCell r j = 0#8

/-- An opcode that selects no operation in a block built with `cfg` (R66). -/
def Unassigned (cfg : Config) (o : Nat) : Prop := o = 0 ∨ 0x0A ≤ o ∨ (cfg.hasFmt = false ∧ (o = 8 ∨ o = 9))

/-- How many of the request's low bits can matter, by opcode and `len` (R63, R65): the opcode alone for an
unassigned one, and for the formatter the data bytes below `len`. -/
def usedBits (w : ReqWord) : Nat :=
  match op w with
  | 1 => 40
  | 2 => 16
  | 3 => 136
  | 4 => 40
  | 5 => 40
  | 6 => 16
  | 7 => 16
  | 8 => 16 + 8 * (w.extractLsb' 8 8).toNat
  | 9 => 16 + 8 * (w.extractLsb' 8 8).toNat
  | _ => 8

/-- How many of the request's low bits the format of an instruction fills, `OP` among them (R63). -/
def formatBits : Instr → Nat
  | .classify _ _ _ => 40
  | .guess _ => 16
  | .tlvdec _ => 136
  | .ulsize _ => 40
  | .mcsize _ => 40
  | .isfirst _ => 16
  | .istrail _ => 16
  | .fmtuid _ _ => 136
  | .fmtbytes _ _ => 136

/-- The fifteen data bytes of format F stand at `REQ[8k+23:8k+16]` (R63). -/
def DataOf (w : ReqWord) (data : List Byte) : Prop :=
  data.length = 15 ∧ ∀ k < 15, data[k]? = some (w.extractLsb' (8 * k + 16) 8)

end Sys2Proof.Claims

open Sys2Proof Sys2Proof.Machine Sys2Proof.Claims

/-! ### Reset, the port and the step -/

/-- 10_state.md R29: the outputs are `step(REQ)` "at every moment including during and after any reset". At reset the
parameter is R5's default; that the port then reads 0 is the model's choice (log 3), the outputs follow (log 4). -/
def Obligations.ResetOutputsAnswerThePort : Prop :=
  step State.reset = .next State.reset ∧ State.reset.cfg.hasFmt = false ∧
  State.reset.req = 0#136 ∧ State.reset.rsp = failRsp .illegalOp

/-- The invariant of `StepEstablishesInv` holds at reset. -/
def Obligations.ResetStateMeetsInv : Prop := State.reset.Inv

/-- A step runs the decoded request and adds nothing around it (R22: no pc); a word that decodes to nothing is answered
`ILLEGAL_OP`. That the state carries the port values is the model's choice (log 1). -/
def Obligations.StepRunsDecodedRequest : Prop :=
  (∀ (s : State) (i : Instr), decode s.req = .ok i → step s = exec i s) ∧
  (∀ (s : State) (e : Reject), decode s.req = .error e → step s = .next (s.setRsp (failRsp .illegalOp)))

/-- A table word put on the request port is what the next step runs, and putting it there changes the port only (the
model's choice of how a request arrives, log 5). -/
def Obligations.TableWordRunsAsPlaced : Prop :=
  ∀ (s : State) (nbits w : Nat),
    (s.withFetchWord nbits w).cfg = s.cfg ∧ (s.withFetchWord nbits w).rsp = s.rsp ∧
    (∀ b < 136, (s.withFetchWord nbits w).req.getLsbD b = (decide (b < nbits) && w.testBit b)) ∧
    ∀ i, decodeTableWord nbits w = some i → step (s.withFetchWord nbits w) = exec i (s.withFetchWord nbits w)

/-- R160: "Every request, whatever its opcode and operands, produces exactly one response, and that response either
carries `STATUS = OK` with a result or a non-`OK` status with no result." The parameter (R24) and the request stay. -/
def Obligations.EveryRequestIsAnswered : Prop :=
  ∀ s : State, ∃ r : Response, step s = .next (s.setRsp r) ∧
    (r.status = .ok ∨ (r.val = 0#32 ∧ r.idx = 0#8 ∧ r.strLen = 0#8 ∧ r.str = 0#352))

/-- R20: "A response is a function of the request word of the same request and of nothing else". Two blocks built alike
with the same word on the port step to the same state, whatever stood on their outputs; and below opcode 8 the
parameter plays no part either (R24). -/
def Obligations.ResponseDependsOnRequestAlone : Prop :=
  (∀ s t : State, s.cfg = t.cfg → s.req = t.req → step s = step t) ∧
  (∀ s t : State, s.req = t.req → op s.req < 8 →
    ∃ r : Response, step s = .next (s.setRsp r) ∧ step t = .next (t.setRsp r))

/-- R165: "Repeating a failed request gives the same failure" (and a successful one the same success), and R29: once
answered, the outputs stand at `step(REQ)`. -/
def Obligations.AnsweredStateIsSettled : Prop :=
  ∀ s t : State, step s = .next t → step t = .next t ∧ t.cfg = s.cfg ∧ t.req = s.req

/-- R49: "any number of requests, to one instance in any order or to several instances at once, produce the same
responses as if each were issued alone": one response for each request of a run, that of a fresh block built alike. -/
def Obligations.RunAnswersEachRequestAlone : Prop :=
  ∀ (s : State) (ws : List ReqWord),
    serve s ws = ws.flatMap (fun w => serve { State.reset with cfg := s.cfg } [w]) ∧ (serve s ws).length = ws.length

/-- Every step ends in a state that meets the invariant (a failure has no payload, R164; the index is at most 16, R116;
the cells of `STR` at and above `STR_LEN` are 0, R72; nothing of the formatter without the formatter, R66), from ANY state,
so it keeps it. The outputs of an absent formatter are held at 0 by the model's choice (log 9). -/
def Obligations.StepEstablishesInv : Prop := ∀ s t : State, step s = .next t → t.Inv

/-! ### Encoding -/

/-- Words written out from the layouts of R60, R62, R63 decode to what they stand for. -/
def Obligations.SampleWordsDecode : Prop :=
  decode 0x0000000000000000000000002003440701#136 = .ok (.classify 7 0x0344 0x20) ∧
  decode 0xFFFFFFFFFFFFFFFFFFFFFFFFFFFFFF0A02#136 = .ok (.guess 10) ∧
  decode 0x3412FF0300000000000000000000000003#136 =
    .ok (.tlvdec [0, 0, 0, 0, 0, 0, 0, 0, 0, 0, 0, 0, 3, 0xFF, 0x12, 0x34]) ∧
  decode 0x0000000000000000000000000000012C05#136 = .ok (.mcsize 300) ∧
  decode 0x00000000000000000000000000FFA2040308#136 =
    .ok (.fmtuid 3 [4, 0xA2, 0xFF, 0, 0, 0, 0, 0, 0, 0, 0, 0, 0, 0, 0])

/-- R62: exactly the opcodes 0x01 to 0x09 are rows of the map, each its own instruction; the decoder's instructions
are well formed and every other opcode is rejected by name. That the map lists 0x08 and 0x09 whatever `HAS_FMT`, their
meanings checking it, is the model's choice (log 2); what such a request is answered is in `UnassignedOpcodeIsIllegal`. -/
def Obligations.OpcodeMapIsExact : Prop :=
  ∀ w : ReqWord,
    (1 ≤ op w ∧ op w ≤ 9 → ∃ i, decode w = .ok i) ∧
    (op w = 0 ∨ 10 ≤ op w → decode w = .error (.unassignedOpcode (w.extractLsb' 0 8))) ∧
    ∀ i, decode w = .ok i → i.wellFormed = true ∧ (opcode i).toNat = op w

/-- Decoding undoes encoding, word and byte form, for every well-formed instruction and every operand value. -/
def Obligations.DecodeUndoesEncode : Prop :=
  ∀ i : Instr, i.wellFormed = true → decode (encode i) = .ok i ∧ decodeBytes (encodeBytes i) = .ok i

/-- Encoding a decoded word gives back every bit of its format's fields and 0 for the ignored bits (R63, R65). -/
def Obligations.EncodeRestoresFields : Prop :=
  ∀ (w : ReqWord) (i : Instr), decode w = .ok i →
    ∀ b < 136, (encode i).getLsbD b = (decide (b < formatBits i) && w.getLsbD b)

/-- R60, R7: written as bytes a request is 17 bytes, byte `j` being bits `[8j+7:8j]`; a sequence of any other length is no
request (R73). -/
def Obligations.RequestIsSeventeenBytes : Prop :=
  (∀ (bs : List Byte) (w : ReqWord), bs.length = 17 → (∀ j < 17, bs[j]? = some (w.extractLsb' (8 * j) 8)) →
    decodeBytes bs = decode w) ∧
  (∀ bs : List Byte, bs.length ≠ 17 → decodeBytes bs = .error (.notRequestLength bs.length))

/-- R61 and R68: `STATUS`, `VAL` and `IDX` stand at `RSP[7:0]`, `RSP[39:8]`, `RSP[47:40]`, with R68's status codes, and as
bytes a response is `STATUS`, `VAL` least significant byte first, `IDX`. -/
def Obligations.ResponseWordLayout : Prop :=
  ∀ r : Response,
    r.word.extractLsb' 8 32 = r.val ∧ r.word.extractLsb' 40 8 = r.idx ∧
    (r.word.extractLsb' 0 8).toNat =
      (match r.status with | .ok => 0 | .notFound => 1 | .malformed => 2 | .illegalOp => 3 | .emptyInput => 4 | .tooLong => 5) ∧
    r.bytes = [r.word.extractLsb' 0 8, r.val.extractLsb' 0 8, r.val.extractLsb' 8 8, r.val.extractLsb' 16 8,
      r.val.extractLsb' 24 8, r.idx]

/-- R65: bits that the format marks ignored, formatter data bytes at or beyond `len`, and the whole argument of an
unassigned opcode (R66) do not affect the response in any way. -/
def Obligations.IgnoredBitsHaveNoEffect : Prop :=
  ∀ (s : State) (w : ReqWord), (∀ b < usedBits s.req, w.getLsbD b = s.req.getLsbD b) →
    ∃ r : Response, step s = .next (s.setRsp r) ∧ step (s.setReq w) = .next ((s.setReq w).setRsp r)

/-! ### Failures -/

/-- R66: the response to an unassigned opcode, whatever `ARG` holds; 0x08 and 0x09 are unassigned when `HAS_FMT` is
false; nothing else happens. On the port the response word is 0x03 (R61, R68). -/
def Obligations.UnassignedOpcodeIsIllegal : Prop :=
  ∀ s : State, Unassigned s.cfg (op s.req) →
    step s = .next (s.setRsp (failRsp .illegalOp)) ∧ (failRsp .illegalOp).word = 0x03#48

/-- R161: the causes of every failure, exactly, and that a failure records nothing. `blk` is the block operand of the
request (R63 format B), `len` is `REQ[15:8]`. -/
def Obligations.FailureCausesAreExact : Prop :=
  ∀ (s t : State) (blk : List Byte), step s = .next t →
    blk.length = 16 → (∀ k < 16, blk[k]? = some (s.req.extractLsb' (8 * k + 8) 8)) →
    (t.rsp.status = .notFound ↔ op s.req = 3 ∧ AllPadding blk) ∧
    (t.rsp.status = .malformed ↔ op s.req = 3 ∧
      ∃ i b, FirstNonPad blk i b ∧ (b ≠ 0x03#8 ∨ HeaderPastBlock blk i)) ∧
    (t.rsp.status = .illegalOp ↔ Unassigned s.cfg (op s.req)) ∧
    (t.rsp.status = .emptyInput ↔
      s.cfg.hasFmt = true ∧ (op s.req = 8 ∨ op s.req = 9) ∧ (s.req.extractLsb' 8 8).toNat = 0) ∧
    (t.rsp.status = .tooLong ↔
      s.cfg.hasFmt = true ∧ (op s.req = 8 ∨ op s.req = 9) ∧ 15 < (s.req.extractLsb' 8 8).toNat) ∧
    (t.rsp.status ≠ .ok → t.rsp.val = 0#32 ∧ t.rsp.idx = 0#8 ∧ t.rsp.strLen = 0#8 ∧ t.rsp.str = 0#352)

/-! ### CLASSIFY and GUESS -/

/-- R100: format C; the decision table, every value matched exactly; `VAL` the code of R67 (0 Unknown, 2 MifareClassic, 3
MifareUltralight, 4 MifareDESFire; never 1, Type2); `STATUS` = `OK` always, `IDX` = 0, nothing else changes. -/
def Obligations.ClassifyFollowsTable : Prop :=
  (∀ w : ReqWord, op w = 1 →
    decode w = .ok (.classify (w.extractLsb' 8 8) (w.extractLsb' 16 16) (w.extractLsb' 32 8))) ∧
  ∀ (uidLen : Byte) (atqa : Atqa) (sak : Byte) (s : State), ∃ v : Word,
    exec (.classify uidLen atqa sak) s = .next (s.setRsp (okRsp v 0#8)) ∧
    (v = 2#32 ↔ ClassicRows uidLen atqa sak) ∧
    (v = 3#32 ↔ UltralightRow uidLen atqa sak) ∧
    (v = 4#32 ↔ DesfireRow uidLen atqa sak) ∧
    (v = 0#32 ↔ ¬ (ClassicRows uidLen atqa sak ∨ UltralightRow uidLen atqa sak ∨ DesfireRow uidLen atqa sak)) ∧
    v ≠ 1#32

/-- R101: format G; length 4 gives MifareClassic (2), every other length Type2 (1); `STATUS` = `OK` always, `IDX` = 0. -/
def Obligations.GuessFollowsLength : Prop :=
  (∀ w : ReqWord, op w = 2 → decode w = .ok (.guess (w.extractLsb' 8 8))) ∧
  ∀ (uidLen : Byte) (s : State), ∃ v : Word,
    exec (.guess uidLen) s = .next (s.setRsp (okRsp v 0#8)) ∧ (uidLen = 4#8 → v = 2#32) ∧ (uidLen ≠ 4#8 → v = 1#32)

/-- 40_classify.md R102: the two classifiers agree exactly on the two Classic rows. -/
def Obligations.ClassifiersAgreeOnClassicRows : Prop :=
  ∀ (uidLen : Byte) (atqa : Atqa) (sak : Byte) (s : State),
    exec (.classify uidLen atqa sak) s = exec (.guess uidLen) s ↔ ClassicRows uidLen atqa sak

/-! ### TLVDEC -/

/-- R110: format B; the scan and the header, every way they can end; nothing but the response changes. That a header which
does not fit is Malformed is the spec's decision D13. -/
def Obligations.TlvdecFollowsPseudocode : Prop :=
  (∀ w : ReqWord, op w = 3 → ∃ blk, decode w = .ok (.tlvdec blk) ∧ blk.length = 16 ∧
    ∀ k < 16, blk[k]? = some (w.extractLsb' (8 * k + 8) 8)) ∧
  ∀ (blk : List Byte) (s : State), blk.length = 16 →
    (AllPadding blk → exec (.tlvdec blk) s = .next (s.setRsp (failRsp .notFound))) ∧
    (∀ i b, FirstNonPad blk i b → b ≠ 0x03#8 →
      exec (.tlvdec blk) s = .next (s.setRsp (failRsp .malformed))) ∧
    (∀ i, FirstNonPad blk i 0x03#8 →
      (blk[i + 1]? = none → exec (.tlvdec blk) s = .next (s.setRsp (failRsp .malformed))) ∧
      (∀ l, blk[i + 1]? = some l → l ≠ 0xFF#8 →
        exec (.tlvdec blk) s = .next (s.setRsp (okRsp (l.setWidth 32) (BitVec.ofNat 8 (i + 2))))) ∧
      (blk[i + 1]? = some 0xFF#8 → blk[i + 3]? = none →
        exec (.tlvdec blk) s = .next (s.setRsp (failRsp .malformed))) ∧
      (∀ hi lo, blk[i + 1]? = some 0xFF#8 → blk[i + 2]? = some hi → blk[i + 3]? = some lo →
        exec (.tlvdec blk) s =
          .next (s.setRsp (okRsp (BitVec.ofNat 32 (256 * hi.toNat + lo.toNat)) (BitVec.ofNat 8 (i + 4))))))

/-- R114: `NotFound` "happens exactly when all sixteen bytes are 0x00"; every other failure is `Malformed`; either way
`VAL` = 0 and `IDX` = 0. -/
def Obligations.TlvFailsInTwoWays : Prop :=
  ∀ (blk : List Byte) (s : State), blk.length = 16 →
    (exec (.tlvdec blk) s = .next (s.setRsp (failRsp .notFound)) ↔ AllPadding blk) ∧
    (exec (.tlvdec blk) s = .next (s.setRsp (failRsp .malformed)) ↔
      ∃ i b, FirstNonPad blk i b ∧ (b ≠ 0x03#8 ∨ HeaderPastBlock blk i)) ∧
    ((∃ v k, exec (.tlvdec blk) s = .next (s.setRsp (okRsp v k))) ↔
      ∃ i, FirstNonPad blk i 0x03#8 ∧ ¬ HeaderPastBlock blk i)

/-- R115: with the tag at `i`, the result is `Malformed` in exactly the three cases listed, and otherwise the decode
succeeds, in short form with `i <= 14`, in long form with `i <= 12` (decision D13). -/
def Obligations.TlvHeaderPastBlockIsMalformed : Prop :=
  ∀ (blk : List Byte) (i : Nat) (s : State), blk.length = 16 → FirstNonPad blk i 0x03#8 →
    (exec (.tlvdec blk) s = .next (s.setRsp (failRsp .malformed)) ↔ HeaderPastBlock blk i) ∧
    (¬ HeaderPastBlock blk i → ∃ v k, exec (.tlvdec blk) s = .next (s.setRsp (okRsp v k)) ∧
      (k.toNat = i + 2 ∧ i ≤ 14 ∨ k.toNat = i + 4 ∧ i ≤ 12))

/-- 41_tlv.md R116: a decoded length is at most 65535, and a start index lies in 2 to 16. -/
def Obligations.TlvSuccessRanges : Prop :=
  ∀ (blk : List Byte) (s : State) (v : Word) (k : Byte), blk.length = 16 →
    exec (.tlvdec blk) s = .next (s.setRsp (okRsp v k)) → v.toNat ≤ 65535 ∧ 2 ≤ k.toNat ∧ k.toNat ≤ 16

/-- R117, the round trip: a header written for a length, after any padding and before any bytes, decodes to that length
and the start offset of its form. -/
def Obligations.TlvRoundTrip : Prop :=
  (∀ (length p : Nat) (rest : List Byte) (s : State), length ≤ 254 → p ≤ 14 → p + 2 + rest.length = 16 →
    exec (.tlvdec (List.replicate p 0#8 ++ [0x03#8, BitVec.ofNat 8 length] ++ rest)) s =
      .next (s.setRsp (okRsp (BitVec.ofNat 32 length) (BitVec.ofNat 8 (p + 2))))) ∧
  (∀ (length p : Nat) (rest : List Byte) (s : State), length ≤ 65535 → p ≤ 12 → p + 4 + rest.length = 16 →
    exec (.tlvdec (List.replicate p 0#8 ++
        [0x03#8, 0xFF#8, BitVec.ofNat 8 (length / 256), BitVec.ofNat 8 (length % 256)] ++ rest)) s =
      .next (s.setRsp (okRsp (BitVec.ofNat 32 length) (BitVec.ofNat 8 (p + 4)))))

/-- 20_memory.md R45: bytes after the header are never examined: two blocks that agree below the start index decode
alike. -/
def Obligations.TlvPayloadIsNotExamined : Prop :=
  ∀ (blk blk' : List Byte) (s : State) (v : Word) (k : Byte), blk.length = 16 → blk'.length = 16 →
    exec (.tlvdec blk) s = .next (s.setRsp (okRsp v k)) → (∀ j < k.toNat, blk'[j]? = blk[j]?) →
    exec (.tlvdec blk') s = .next (s.setRsp (okRsp v k))

/-! ### ULSIZE and MCSIZE -/

/-- R120: `roundup` is the two-case formula, the least multiple of the unit that is at least `x`, and, for a power-of-two
unit, `(x + u - 1) and not (u - 1)`. -/
def Obligations.RoundupIsLeastMultiple : Prop :=
  ∀ u, u = 4 ∨ u = 16 →
    (∀ x, (x % u = 0 → roundup x u = x) ∧ (x % u ≠ 0 → roundup x u = (x / u + 1) * u) ∧
      u ∣ roundup x u ∧ x ≤ roundup x u ∧ ∀ m, u ∣ m → x ≤ m → roundup x u ≤ m) ∧
    roundup 0 u = 0 ∧
    ∀ x : Word, BitVec.ofNat 32 (roundup x.toNat u) = (x + BitVec.ofNat 32 (u - 1)) &&& ~~~ (BitVec.ofNat 32 (u - 1))

/-- R121: format L; raw = (message_length + 3) mod 2^32, rounded up to 4, mod 2^32 (the reduction is the spec's decision
D12, log 6); `STATUS` = `OK` always, `IDX` = 0. -/
def Obligations.UlsizeResult : Prop :=
  (∀ w : ReqWord, op w = 4 → decode w = .ok (.ulsize (w.extractLsb' 8 32))) ∧
  ∀ (messageLength : Word) (s : State),
    exec (.ulsize messageLength) s =
      .next (s.setRsp (okRsp (BitVec.ofNat 32 (roundedUp ((messageLength.toNat + 3) % 2 ^ 32) 4)) 0#8))

/-- R122: format L; overhead 3 below 255 and 4 from 255 on (C2), rounded up to 16, mod 2^32 (D12, log 6); `STATUS` =
`OK` always, `IDX` = 0. -/
def Obligations.McsizeResult : Prop :=
  (∀ w : ReqWord, op w = 5 → decode w = .ok (.mcsize (w.extractLsb' 8 32))) ∧
  ∀ (messageLength : Word) (s : State),
    exec (.mcsize messageLength) s =
      .next (s.setRsp (okRsp (BitVec.ofNat 32
        (roundedUp ((messageLength.toNat + classicOverhead messageLength.toNat) % 2 ^ 32) 16)) 0#8))

/-- 42_bufsize.md R123 and D12 (log 6): the sizes are exact up to the two bounds and wrap to the listed values beyond. -/
def Obligations.SizesWrapAsListed : Prop :=
  ∀ (messageLength : Word) (s : State), ∃ ul mc : Word,
    exec (.ulsize messageLength) s = .next (s.setRsp (okRsp ul 0#8)) ∧
    exec (.mcsize messageLength) s = .next (s.setRsp (okRsp mc 0#8)) ∧
    (messageLength.toNat ≤ 0xFFFFFFF9 → ul.toNat = roundedUp (messageLength.toNat + 3) 4) ∧
    (0xFFFFFFFA ≤ messageLength.toNat ∧ messageLength.toNat ≤ 0xFFFFFFFD → ul = 0#32) ∧
    (0xFFFFFFFE ≤ messageLength.toNat → ul = 4#32) ∧
    (messageLength.toNat ≤ 0xFFFFFFEC →
      mc.toNat = roundedUp (messageLength.toNat + classicOverhead messageLength.toNat) 16) ∧
    (0xFFFFFFED ≤ messageLength.toNat ∧ messageLength.toNat ≤ 0xFFFFFFFC → mc = 0#32) ∧
    (0xFFFFFFFD ≤ messageLength.toNat → mc = 16#32)

/-- 42_bufsize.md R124: in the exact range the sizes are multiples of their unit, cover the message and its overhead
with less than one unit to spare, and never shrink when the message grows. -/
def Obligations.SizesCoverMessage : Prop :=
  ∀ (a b : Word) (s : State), a.toNat ≤ b.toNat →
    (b.toNat ≤ 0xFFFFFFF9 → ∃ x y : Word,
      exec (.ulsize a) s = .next (s.setRsp (okRsp x 0#8)) ∧ exec (.ulsize b) s = .next (s.setRsp (okRsp y 0#8)) ∧
      x.toNat ≤ y.toNat ∧ 4 ∣ y.toNat ∧ 4 ≤ y.toNat ∧ b.toNat + 3 ≤ y.toNat ∧ y.toNat ≤ b.toNat + 6) ∧
    (b.toNat ≤ 0xFFFFFFEC → ∃ x y : Word,
      exec (.mcsize a) s = .next (s.setRsp (okRsp x 0#8)) ∧ exec (.mcsize b) s = .next (s.setRsp (okRsp y 0#8)) ∧
      x.toNat ≤ y.toNat ∧ 16 ∣ y.toNat ∧ 16 ≤ y.toNat ∧ b.toNat + classicOverhead b.toNat ≤ y.toNat ∧
      y.toNat ≤ b.toNat + classicOverhead b.toNat + 15)

/-- 42_bufsize.md R123, 41_tlv.md R116: no decoded length reaches the wrapped range: sized for either family it gives an
exact, non-zero size of at most 65540 and 65552. -/
def Obligations.DecodedLengthsSizeExactly : Prop :=
  ∀ (blk : List Byte) (s : State) (v : Word) (k : Byte), blk.length = 16 →
    exec (.tlvdec blk) s = .next (s.setRsp (okRsp v k)) → ∃ ul mc : Word,
      exec (.ulsize v) s = .next (s.setRsp (okRsp ul 0#8)) ∧ v.toNat + 3 ≤ ul.toNat ∧ ul.toNat ≤ 65540 ∧
      exec (.mcsize v) s = .next (s.setRsp (okRsp mc 0#8)) ∧
      v.toNat + classicOverhead v.toNat ≤ mc.toNat ∧ mc.toNat ≤ 65552

/-! ### ISFIRST and ISTRAIL -/

/-- R130: format N; `VAL` is 1 iff (n < 128 and n mod 4 == 0) or (n >= 128 and n mod 16 == 0), else 0; `STATUS` = `OK` always,
`IDX` = 0; and the same condition in bits. -/
def Obligations.IsfirstFollowsFormula : Prop :=
  (∀ w : ReqWord, op w = 6 → decode w = .ok (.isfirst (w.extractLsb' 8 8))) ∧
  ∀ (n : Byte) (s : State),
    (FirstFormula n.toNat → exec (.isfirst n) s = .next (s.setRsp (okRsp 1#32 0#8))) ∧
    (¬ FirstFormula n.toNat → exec (.isfirst n) s = .next (s.setRsp (okRsp 0#32 0#8))) ∧
    (FirstFormula n.toNat ↔
      (n.getLsbD 7 = false ∧ n.extractLsb' 0 2 = 0#2) ∨ (n.getLsbD 7 = true ∧ n.extractLsb' 0 4 = 0#4))

/-- R131: format N; `VAL` is 1 iff (n < 128 and (n+1) mod 4 == 0) or (n >= 128 and (n+1) mod 16 == 0), n + 1 without wrap,
else 0; `STATUS` = `OK` always, `IDX` = 0; and the same condition in bits. -/
def Obligations.IstrailFollowsFormula : Prop :=
  (∀ w : ReqWord, op w = 7 → decode w = .ok (.istrail (w.extractLsb' 8 8))) ∧
  ∀ (n : Byte) (s : State),
    (TrailerFormula n.toNat → exec (.istrail n) s = .next (s.setRsp (okRsp 1#32 0#8))) ∧
    (¬ TrailerFormula n.toNat → exec (.istrail n) s = .next (s.setRsp (okRsp 0#32 0#8))) ∧
    (TrailerFormula n.toNat ↔
      (n.getLsbD 7 = false ∧ n.extractLsb' 0 2 = 3#2) ∨ (n.getLsbD 7 = true ∧ n.extractLsb' 0 4 = 15#4))

/-- R132: "for all n in [0,255], is_first_block(n) and is_trailer_block(n) are never both true"; a block can be neither. -/
def Obligations.FirstAndTrailerExclude : Prop :=
  (∀ (n : Byte) (s : State), ¬ (exec (.isfirst n) s = .next (s.setRsp (okRsp 1#32 0#8)) ∧
    exec (.istrail n) s = .next (s.setRsp (okRsp 1#32 0#8)))) ∧
  ∀ (s : State) (n : Byte), n = 1#8 ∨ n = 2#8 ∨ n = 129#8 ∨ n = 142#8 →
    exec (.isfirst n) s = .next (s.setRsp (okRsp 0#32 0#8)) ∧ exec (.istrail n) s = .next (s.setRsp (okRsp 0#32 0#8))

/-- 43_blockpos.md R133 with the map of 20_memory.md R47: ISFIRST is true exactly of the lowest block of its sector,
ISTRAIL exactly of the highest, they stand one sector length less 1 apart, and a trailer is the block before a first. -/
def Obligations.PositionsMatchGeometry : Prop :=
  (∀ (n : Byte) (s : State), exec (.isfirst n) s = .next (s.setRsp (okRsp 1#32 0#8)) ↔
    ∀ m : Nat, sectorOf m = sectorOf n.toNat → n.toNat ≤ m) ∧
  (∀ (n : Byte) (s : State), exec (.istrail n) s = .next (s.setRsp (okRsp 1#32 0#8)) ↔
    ∀ m : Nat, sectorOf m = sectorOf n.toNat → m ≤ n.toNat) ∧
  (∀ (n m : Byte) (s : State), exec (.isfirst n) s = .next (s.setRsp (okRsp 1#32 0#8)) →
    exec (.istrail m) s = .next (s.setRsp (okRsp 1#32 0#8)) → sectorOf m.toNat = sectorOf n.toNat →
    m.toNat = n.toNat + (if sectorOf n.toNat < 32 then 4 else 16) - 1) ∧
  (∀ (n : Byte) (s : State), n.toNat ≤ 254 → (exec (.istrail n) s = .next (s.setRsp (okRsp 1#32 0#8)) ↔
    exec (.isfirst (n + 1#8)) s = .next (s.setRsp (okRsp 1#32 0#8))))

/-! ### FMTUID and FMTBYTES -/

/-- R140: format F, present only if `HAS_FMT`; a length of 1 to 15 gives the text of the bytes with hyphens; data at
or beyond `len` is ignored. The port limit and the ASCII codes are the spec's (D15, log 7). -/
def Obligations.FmtuidCarriesHyphenText : Prop :=
  (∀ w : ReqWord, op w = 8 → ∃ data, decode w = .ok (.fmtuid (w.extractLsb' 8 8) data) ∧ DataOf w data) ∧
  ∀ (len : Byte) (data : List Byte) (s : State), data.length = 15 → s.cfg.hasFmt = true →
    (1 ≤ len.toNat → len.toNat ≤ 15 →
      ∃ r : Response, exec (.fmtuid len data) s = .next (s.setRsp r) ∧ CarriesText 0x2D#8 len.toNat data r) ∧
    (len = 0#8 → exec (.fmtuid len data) s = .next (s.setRsp (failRsp .emptyInput))) ∧
    (15 < len.toNat → exec (.fmtuid len data) s = .next (s.setRsp (failRsp .tooLong)))

/-- R141: as R140 with one space between the bytes; for a single byte the two operations give the same text. -/
def Obligations.FmtbytesCarriesSpaceText : Prop :=
  (∀ w : ReqWord, op w = 9 → ∃ data, decode w = .ok (.fmtbytes (w.extractLsb' 8 8) data) ∧ DataOf w data) ∧
  (∀ (len : Byte) (data : List Byte) (s : State), data.length = 15 → s.cfg.hasFmt = true →
    (1 ≤ len.toNat → len.toNat ≤ 15 →
      ∃ r : Response, exec (.fmtbytes len data) s = .next (s.setRsp r) ∧ CarriesText 0x20#8 len.toNat data r) ∧
    (len = 0#8 → exec (.fmtbytes len data) s = .next (s.setRsp (failRsp .emptyInput))) ∧
    (15 < len.toNat → exec (.fmtbytes len data) s = .next (s.setRsp (failRsp .tooLong)))) ∧
  ∀ (data : List Byte) (s : State), data.length = 15 → exec (.fmtbytes 1#8 data) s = exec (.fmtuid 1#8 data) s

/-- R143 and R144: an empty input is rejected as EMPTY_INPUT, a length above 15 as TOO_LONG, whatever the data bytes, with
`STR_LEN`, `STR` and `VAL` 0; and without the unit (R66) both operations are ILLEGAL_OP. -/
def Obligations.FormatterGuardsReject : Prop :=
  ∀ (len : Byte) (data : List Byte) (s : State) (i : Instr), i = .fmtuid len data ∨ i = .fmtbytes len data →
    (s.cfg.hasFmt = true → len = 0#8 → exec i s = .next (s.setRsp (failRsp .emptyInput))) ∧
    (s.cfg.hasFmt = true → 15 < len.toNat → exec i s = .next (s.setRsp (failRsp .tooLong))) ∧
    (s.cfg.hasFmt = false → exec i s = .next (s.setRsp (failRsp .illegalOp)))

/-- 30_encoding.md R72: the two string outputs exist exactly if `HAS_FMT`; they are 0 on every failure and after every
opcode but 0x08 and 0x09, where `VAL` copies `STR_LEN` and `IDX` is 0; the cells at and above `STR_LEN` are 0. -/
def Obligations.StringOutputsOnlyFromFormatter : Prop :=
  ∀ s t : State, step s = .next t →
    (t.strPort = if s.cfg.hasFmt = true then some (t.rsp.strLen, t.rsp.str) else none) ∧
    (t.rsp.status ≠ .ok ∨ (op s.req ≠ 8 ∧ op s.req ≠ 9) → t.rsp.strLen = 0#8 ∧ t.rsp.str = 0#352) ∧
    (op s.req = 8 ∨ op s.req = 9 → t.rsp.val = t.rsp.strLen.setWidth 32 ∧ t.rsp.idx = 0#8) ∧
    (t.rsp.strLen.toNat ≤ 44 ∧ ∀ j, t.rsp.strLen.toNat ≤ j → j < 44 → strCell t.rsp j = 0#8)
end

