-- ==== Sys2Proof/Laws/State.lean ====
section
/-! SUPPORT. What each update of `State` leaves in each field. -/

namespace Sys2Proof.Machine

@[simp] theorem State.setReq_cfg (s : State) (w : ReqWord) : (s.setReq w).cfg = s.cfg := rfl
@[simp] theorem State.setReq_req (s : State) (w : ReqWord) : (s.setReq w).req = w := rfl
@[simp] theorem State.setReq_rsp (s : State) (w : ReqWord) : (s.setReq w).rsp = s.rsp := rfl
@[simp] theorem State.setRsp_cfg (s : State) (r : Response) : (s.setRsp r).cfg = s.cfg := rfl
@[simp] theorem State.setRsp_req (s : State) (r : Response) : (s.setRsp r).req = s.req := rfl
@[simp] theorem State.setRsp_rsp (s : State) (r : Response) : (s.setRsp r).rsp = r := rfl
@[simp] theorem State.setRsp_setRsp (s : State) (r r' : Response) : (s.setRsp r).setRsp r' = s.setRsp r' := rfl

@[simp] theorem State.withFetchWord_cfg (s : State) (nbits w : Nat) : (s.withFetchWord nbits w).cfg = s.cfg := rfl
@[simp] theorem State.withFetchWord_req (s : State) (nbits w : Nat) :
    (s.withFetchWord nbits w).req = tableReq nbits w := rfl
@[simp] theorem State.withFetchWord_rsp (s : State) (nbits w : Nat) : (s.withFetchWord nbits w).rsp = s.rsp := rfl

/-- A state whose outputs already stand as `r` is unchanged by driving `r` again. -/
theorem State.setRsp_self (s : State) : s.setRsp s.rsp = s := rfl

end Sys2Proof.Machine
end

