-- ==== Sys2Proof/Laws/Ops.lean ====
section
/-! SUPPORT. Everything the shared operations can do: each drives one response and changes nothing else. -/

namespace Sys2Proof.Machine

theorem next_inj {a b : State} : (Host.Outcome.next a : Host.Outcome State Fault Refusal) = .next b ↔ a = b :=
  ⟨fun h => Host.Outcome.next.inj h, congrArg _⟩

theorem respond_eq (r : Response) (s : State) : respond r s = .next (s.setRsp r) := rfl

theorem returnPair_eq (v : Word) (k : Byte) (s : State) :
    returnPair v k s = .next (s.setRsp ⟨.ok, v, k, 0#8, 0#352⟩) := rfl

theorem returnVal_eq (v : Word) (s : State) : returnVal v s = .next (s.setRsp ⟨.ok, v, 0#8, 0#8, 0#352⟩) := rfl

theorem raise_eq (c : Status) (s : State) : raise c s = .next (s.setRsp ⟨c, 0#32, 0#8, 0#8, 0#352⟩) := rfl

theorem returnString_eq (chars : List Byte) (s : State) :
    returnString chars s = .next (s.setRsp ⟨.ok, BitVec.ofNat 32 chars.length, 0#8, BitVec.ofNat 8 chars.length,
      BitVec.ofNat 352 (packBytes chars)⟩) := rfl

/-- The response a parser result stands for (R110, R114). -/
theorem endTlv_cases (r : TlvResult) (s : State) :
    (∃ v k, r = .ok v k ∧ endTlv r s = .next (s.setRsp ⟨.ok, v, k, 0#8, 0#352⟩)) ∨
    (r = .notFound ∧ endTlv r s = .next (s.setRsp ⟨.notFound, 0#32, 0#8, 0#8, 0#352⟩)) ∨
    (r = .malformed ∧ endTlv r s = .next (s.setRsp ⟨.malformed, 0#32, 0#8, 0#8, 0#352⟩)) := by
  cases r with
  | ok v k => exact .inl ⟨v, k, rfl, rfl⟩
  | notFound => exact .inr (.inl ⟨rfl, rfl⟩)
  | malformed => exact .inr (.inr ⟨rfl, rfl⟩)

/-- The four ends of a formatter request, with the condition of each (R66, R143, R144, R140). -/
theorem formatWith_cases (sep len : Byte) (data : List Byte) (s : State) :
    (s.cfg.hasFmt = false ∧ formatWith sep len data s = raise .illegalOp s) ∨
    (s.cfg.hasFmt = true ∧ len = 0 ∧ formatWith sep len data s = raise .emptyInput s) ∨
    (s.cfg.hasFmt = true ∧ len.toNat > 15 ∧ formatWith sep len data s = raise .tooLong s) ∨
    (s.cfg.hasFmt = true ∧ 0 < len.toNat ∧ len.toNat ≤ 15 ∧
      formatWith sep len data s = returnString (hexString sep (data.take len.toNat)) s) := by
  unfold formatWith
  cases hf : s.cfg.hasFmt with
  | false => simp
  | true =>
    by_cases h0 : len = 0#8
    · simp [h0]
    · have hpos : 0 < len.toNat := by
        rcases Nat.eq_zero_or_pos len.toNat with h | h
        · exact absurd (BitVec.eq_of_toNat_eq h) h0
        · exact h
      by_cases h15 : len.toNat > fmtMax
      · have : 15 < len.toNat := h15
        simp [h0, h15, this]
      · have : len.toNat ≤ 15 := Nat.not_lt.mp h15
        simp [h0, h15, this, hpos, dataOperand]

/-- Every meaning drives one response, which its instruction and the parameter determine, and changes nothing
else (R20, R160). -/
theorem exec_drives_response (i : Instr) (c : Config) :
    ∃ r, ∀ s : State, s.cfg = c → exec i s = .next (s.setRsp r) := by
  have hfmt : ∀ sep len data, ∃ r, ∀ s : State, s.cfg = c → formatWith sep len data s = .next (s.setRsp r) := by
    intro sep len data
    obtain ⟨f⟩ := c
    by_cases hf : f = true
    · by_cases h0 : len = 0#8
      · exact ⟨_, fun s hs => by simp [formatWith, hs, hf, h0, raise_eq]; rfl⟩
      · by_cases h15 : len.toNat > fmtMax
        · exact ⟨_, fun s hs => by simp [formatWith, hs, hf, h0, h15, raise_eq]; rfl⟩
        · exact ⟨_, fun s hs => by simp [formatWith, hs, hf, h0, h15, returnString_eq]; rfl⟩
    · exact ⟨_, fun s hs => by simp [formatWith, hs, hf, raise_eq]; rfl⟩
  cases i with
  | classify u a k => exact ⟨_, fun s _ => rfl⟩
  | guess u => exact ⟨_, fun s _ => rfl⟩
  | tlvdec blk =>
    show ∃ r, ∀ s : State, s.cfg = c → endTlv (tlvDecode blk) s = .next (s.setRsp r)
    cases tlvDecode blk <;> exact ⟨_, fun s _ => rfl⟩
  | ulsize n => exact ⟨_, fun s _ => rfl⟩
  | mcsize n => exact ⟨_, fun s _ => rfl⟩
  | isfirst n => exact ⟨_, fun s _ => rfl⟩
  | istrail n => exact ⟨_, fun s _ => rfl⟩
  | fmtuid len data => exact hfmt _ len data
  | fmtbytes len data => exact hfmt _ len data

end Sys2Proof.Machine
end

