-- ==== Sys2Proof/Laws/BufSize.lean ====
section
/-! SUPPORT. The rounding helper as one formula (spec/42_bufsize.md R120). -/

namespace Sys2Proof.Machine

/-- `roundup` as a ceiling division. -/
theorem roundup_eq_ceil (x u : Nat) (h : 0 < u) : roundup x u = (x + (u - 1)) / u * u := by
  unfold roundup
  have hx := Nat.div_add_mod x u
  split
  · next h0 =>
    have : (x + (u - 1)) / u = x / u := by
      apply Nat.div_eq_of_lt_le
      · rw [Nat.mul_comm]; omega
      · rw [Nat.add_mul, Nat.mul_comm]; omega
    rw [this, Nat.mul_comm]; omega
  · next h0 =>
    have hlt := Nat.mod_lt x h
    congr 1
    symm
    apply Nat.div_eq_of_lt_le
    · rw [Nat.add_mul, Nat.mul_comm (x / u)]; omega
    · rw [Nat.add_mul, Nat.add_mul, Nat.mul_comm (x / u)]; omega

end Sys2Proof.Machine
end

