-- ==== Sys2Proof/Laws/Decode.lean ====
section
/-! SUPPORT. Byte sequences and their words (spec/00_scope.md R7), and the decoder one opcode at a time. -/

namespace Sys2Proof

@[simp] theorem packBytes_nil : packBytes [] = 0 := rfl

@[simp] theorem packBytes_cons (b : Byte) (bs : List Byte) : packBytes (b :: bs) = b.toNat + 256 * packBytes bs := rfl

theorem packBytes_lt (bs : List Byte) : packBytes bs < 256 ^ bs.length := by
  induction bs with
  | nil => simp
  | cons b bs ih =>
    have hb : b.toNat < 256 := b.isLt
    have : 256 ^ (b :: bs).length = 256 * 256 ^ bs.length := by rw [List.length_cons, pow_succ, mul_comm]
    rw [packBytes_cons, this]
    omega

/-- Byte `k` of a packed sequence (R7): bits `[8k+7:8k]`, 0 past its end. -/
theorem packBytes_byte (bs : List Byte) (k : Nat) : packBytes bs / 2 ^ (8 * k) % 256 = (bs.getD k 0).toNat := by
  induction bs generalizing k with
  | nil => simp
  | cons b bs ih =>
    have hb : b.toNat < 256 := b.isLt
    cases k with
    | zero => simp; omega
    | succ k =>
      have : 2 ^ (8 * (k + 1)) = 256 * 2 ^ (8 * k) := by rw [show 8 * (k + 1) = 8 + 8 * k by ring, pow_add]; norm_num
      rw [this, packBytes_cons, ← Nat.div_div_eq_div_mul, show (b.toNat + 256 * packBytes bs) / 256 = packBytes bs by omega, ih]
      simp

@[simp] theorem unpackBytes_length (n w : Nat) : (unpackBytes n w).length = n := by
  induction n generalizing w with
  | zero => rfl
  | succ n ih => simp [unpackBytes, ih]

/-- Packing undoes unpacking, up to the number of bytes. -/
theorem packBytes_unpackBytes (n w : Nat) : packBytes (unpackBytes n w) = w % 256 ^ n := by
  induction n generalizing w with
  | zero => simp [unpackBytes, Nat.mod_one]
  | succ n ih =>
    rw [unpackBytes, packBytes_cons, ih, pow_succ, mul_comm (256 ^ n), Nat.mod_mul]
    simp

/-- Unpacking undoes packing. -/
theorem unpackBytes_packBytes (bs : List Byte) : unpackBytes bs.length (packBytes bs) = bs := by
  induction bs with
  | nil => rfl
  | cons b bs ih =>
    have hb : b.toNat < 256 := b.isLt
    rw [List.length_cons, unpackBytes, packBytes_cons, show (b.toNat + 256 * packBytes bs) / 256 = packBytes bs by omega, ih]
    congr 1
    apply BitVec.eq_of_toNat_eq
    simp; omega

/-- The byte form of a request word spells that word (R7, R60). -/
theorem decodeBytes_unpackBytes (req : ReqWord) : decodeBytes (unpackBytes 17 req.toNat) = decode req := by
  have h : req.toNat < 256 ^ 17 := req.isLt
  rw [decodeBytes, if_pos (unpackBytes_length _ _), packBytes_unpackBytes, Nat.mod_eq_of_lt h, BitVec.ofNat_toNat,
    BitVec.setWidth_eq]

/-- A byte field of a word that holds a packed sequence from bit `lo` on. -/
theorem byteAt_ofNat_packBytes {w : Nat} (bs : List Byte) (k : Nat) (h : 8 * bs.length ≤ w) :
    (BitVec.ofNat w (packBytes bs)).extractLsb' (8 * k) 8 = bs.getD k 0 := by
  apply BitVec.eq_of_toNat_eq
  have hlt : packBytes bs < 2 ^ w :=
    lt_of_lt_of_le (packBytes_lt bs) (by rw [show (256 : Nat) = 2 ^ 8 by norm_num, ← pow_mul]
                                         exact Nat.pow_le_pow_right (by norm_num) h)
  rw [BitVec.extractLsb'_toNat, BitVec.toNat_ofNat, Nat.mod_eq_of_lt hlt, Nat.shiftRight_eq_div_pow, ← packBytes_byte]

/-! ### The decoder, one opcode at a time (R62) -/

section
variable {req : ReqWord}

theorem decode_classify (h : opField req = 0x01#8) :
    decode req = .ok (.classify (byteField req) (atqaField req) (sakField req)) := by simp [decode, h]
theorem decode_guess (h : opField req = 0x02#8) : decode req = .ok (.guess (byteField req)) := by simp [decode, h]
theorem decode_tlvdec (h : opField req = 0x03#8) : decode req = .ok (.tlvdec (blockField req)) := by simp [decode, h]
theorem decode_ulsize (h : opField req = 0x04#8) : decode req = .ok (.ulsize (lengthField req)) := by simp [decode, h]
theorem decode_mcsize (h : opField req = 0x05#8) : decode req = .ok (.mcsize (lengthField req)) := by simp [decode, h]
theorem decode_isfirst (h : opField req = 0x06#8) : decode req = .ok (.isfirst (byteField req)) := by simp [decode, h]
theorem decode_istrail (h : opField req = 0x07#8) : decode req = .ok (.istrail (byteField req)) := by simp [decode, h]
theorem decode_fmtuid (h : opField req = 0x08#8) :
    decode req = .ok (.fmtuid (byteField req) (dataField req)) := by simp [decode, h]
theorem decode_fmtbytes (h : opField req = 0x09#8) :
    decode req = .ok (.fmtbytes (byteField req) (dataField req)) := by simp [decode, h]

end

/-- Everything the decoder can answer: one of nine instructions with its opcode, or the rejection (R62, R66). -/
theorem decode_cases (req : ReqWord) :
    (opField req = 0x01#8 ∧ decode req = .ok (.classify (byteField req) (atqaField req) (sakField req))) ∨
    (opField req = 0x02#8 ∧ decode req = .ok (.guess (byteField req))) ∨
    (opField req = 0x03#8 ∧ decode req = .ok (.tlvdec (blockField req))) ∨
    (opField req = 0x04#8 ∧ decode req = .ok (.ulsize (lengthField req))) ∨
    (opField req = 0x05#8 ∧ decode req = .ok (.mcsize (lengthField req))) ∨
    (opField req = 0x06#8 ∧ decode req = .ok (.isfirst (byteField req))) ∨
    (opField req = 0x07#8 ∧ decode req = .ok (.istrail (byteField req))) ∨
    (opField req = 0x08#8 ∧ decode req = .ok (.fmtuid (byteField req) (dataField req))) ∨
    (opField req = 0x09#8 ∧ decode req = .ok (.fmtbytes (byteField req) (dataField req))) ∨
    ((opField req = 0x00#8 ∨ 0x0A ≤ (opField req).toNat) ∧
      decode req = .error (.unassignedOpcode (opField req))) := by
  by_cases h1 : opField req = 0x01#8; · exact .inl ⟨h1, decode_classify h1⟩
  refine .inr ?_
  by_cases h2 : opField req = 0x02#8; · exact .inl ⟨h2, decode_guess h2⟩
  refine .inr ?_
  by_cases h3 : opField req = 0x03#8; · exact .inl ⟨h3, decode_tlvdec h3⟩
  refine .inr ?_
  by_cases h4 : opField req = 0x04#8; · exact .inl ⟨h4, decode_ulsize h4⟩
  refine .inr ?_
  by_cases h5 : opField req = 0x05#8; · exact .inl ⟨h5, decode_mcsize h5⟩
  refine .inr ?_
  by_cases h6 : opField req = 0x06#8; · exact .inl ⟨h6, decode_isfirst h6⟩
  refine .inr ?_
  by_cases h7 : opField req = 0x07#8; · exact .inl ⟨h7, decode_istrail h7⟩
  refine .inr ?_
  by_cases h8 : opField req = 0x08#8; · exact .inl ⟨h8, decode_fmtuid h8⟩
  refine .inr ?_
  by_cases h9 : opField req = 0x09#8; · exact .inl ⟨h9, decode_fmtbytes h9⟩
  refine .inr ⟨?_, by simp [decode, h1, h2, h3, h4, h5, h6, h7, h8, h9]⟩
  generalize opField req = op at *
  simp only [BitVec.toNat_eq, BitVec.toNat_ofNat] at *
  omega

@[simp] theorem blockField_length (req : ReqWord) : (blockField req).length = 16 := by simp [blockField, blockSize]

@[simp] theorem dataField_length (req : ReqWord) : (dataField req).length = 15 := by simp [dataField, fmtMax]

theorem blockField_get (req : ReqWord) {k : Nat} (h : k < 16) :
    (blockField req)[k]? = some (req.extractLsb' (8 * k + 8) 8) := by simp [blockField, blockSize, h]

theorem dataField_get (req : ReqWord) {k : Nat} (h : k < 15) :
    (dataField req)[k]? = some (req.extractLsb' (8 * k + 16) 8) := by simp [dataField, fmtMax, h]

/-! ### The encoder, bit by bit (R60) -/

/-- `OP` below bit 8, `ARG` from bit 8 on. -/
theorem encode_getLsbD (i : Instr) (b : Nat) :
    (encode i).getLsbD b = if b < 8 then (opcode i).getLsbD b else (argument i).getLsbD (b - 8) := by
  have h := BitVec.getLsbD_append (x := argument i) (y := opcode i) (i := b)
  rw [encode]
  exact h

/-- The low byte of an instruction's word is its row's opcode (R60). -/
theorem opField_encode (i : Instr) : opField (encode i) = opcode i := by
  apply BitVec.eq_of_getLsbD_eq
  intro b hb
  rw [opField, BitVec.getLsbD_extractLsb', Nat.zero_add, encode_getLsbD]
  simp [hb]

/-- A field of the word above `OP` is a field of the argument. -/
theorem encode_extractLsb' (i : Instr) (lo w : Nat) (h : 8 ≤ lo) :
    (encode i).extractLsb' lo w = (argument i).extractLsb' (lo - 8) w := by
  apply BitVec.eq_of_getLsbD_eq
  intro b hb
  rw [BitVec.getLsbD_extractLsb', BitVec.getLsbD_extractLsb', encode_getLsbD, if_neg (by omega),
    show lo + b - 8 = lo - 8 + b by omega]

end Sys2Proof
end

