-- ==== Sys2Proof/Laws/Formatter.lean ====
section
/-! SUPPORT. The formatter's string, cell by cell (spec/44_formatter_aux.md R140 to R142). -/

namespace Sys2Proof.Machine

@[simp] theorem hex2_length (b : Byte) : (hex2 b).length = 2 := rfl

/-- `3*len - 1` characters (R140). -/
theorem hexString_length (sep : Byte) (ds : List Byte) : (hexString sep ds).length = 3 * ds.length - 1 := by
  cases ds with
  | nil => rfl
  | cons d ds =>
    have : (ds.flatMap fun b => sep :: hex2 b).length = 3 * ds.length := by
      induction ds with
      | nil => rfl
      | cons b ds ih => simp only [List.flatMap_cons, List.length_append, List.length_cons, hex2_length, ih]; ring
    simp only [hexString, List.length_append, hex2_length, this, List.length_cons]; omega

/-- A string of two or more bytes: the first byte's digits, the separator, the string of the rest. -/
theorem hexString_cons_cons (sep d e : Byte) (ds : List Byte) :
    hexString sep (d :: e :: ds) = hex2 d ++ sep :: hexString sep (e :: ds) := by simp [hexString]

end Sys2Proof.Machine
end

