-- ==== Sys2Proof/Laws/PerInstr.lean ====
section
/-! SUPPORT. Facts about every instruction as syntax, one lemma per constructor. -/

namespace Sys2Proof.Laws.OpcodeByte

/-- The low byte of an instruction's word is its row's opcode (R60, R62). -/
def Statement (i : Instr) : Prop := opField (encode i) = opcode i

theorem classify (uidLen : Byte) (atqa : Atqa) (sak : Byte) : Statement (.classify uidLen atqa sak) := opField_encode _
theorem guess (uidLen : Byte) : Statement (.guess uidLen) := opField_encode _
theorem tlvdec (blk : List Byte) : Statement (.tlvdec blk) := opField_encode _
theorem ulsize (messageLength : Word) : Statement (.ulsize messageLength) := opField_encode _
theorem mcsize (messageLength : Word) : Statement (.mcsize messageLength) := opField_encode _
theorem isfirst (n : Byte) : Statement (.isfirst n) := opField_encode _
theorem istrail (n : Byte) : Statement (.istrail n) := opField_encode _
theorem fmtuid (len : Byte) (data : List Byte) : Statement (.fmtuid len data) := opField_encode _
theorem fmtbytes (len : Byte) (data : List Byte) : Statement (.fmtbytes len data) := opField_encode _

end Sys2Proof.Laws.OpcodeByte
end

