-- ==== Sys2Proof/Laws/Tlv.lean ====
section
/-! SUPPORT. The TLV parser's two halves, one lemma per way they end (spec/41_tlv.md R110 to R115). -/

namespace Sys2Proof.Machine

/-- The scan passes over padding (R111). -/
theorem tlvScan_padding (blk : List Byte) (i p : Nat) (rest : List Byte) :
    tlvScan blk i (List.replicate p 0#8 ++ rest) = tlvScan blk (i + p) rest := by
  induction p generalizing i with
  | zero => simp
  | succ p ih =>
    rw [List.replicate_succ, List.cons_append, tlvScan, if_pos (by rfl), ih]
    congr 1; omega

/-- The first byte that is no padding decides (R111). -/
theorem tlvScan_decides (blk : List Byte) (i : Nat) (b : Byte) (rest : List Byte) (hb : b ≠ 0#8) :
    tlvScan blk i (b :: rest) = if b = 0x03#8 then tlvHeader blk i else .malformed := by
  rw [tlvScan, if_neg (by exact hb)]; rfl

/-- The header does not fit: no length byte (R115). -/
theorem tlvHeader_noLength {blk : List Byte} {i : Nat} (h : blk[i + 1]? = none) : tlvHeader blk i = .malformed := by
  simp [tlvHeader, memRead, h]

/-- Short form (R112). -/
theorem tlvHeader_short {blk : List Byte} {i : Nat} {l : Byte} (h : blk[i + 1]? = some l) (hl : l ≠ 0xFF#8) :
    tlvHeader blk i = .ok (l.setWidth 32) (BitVec.ofNat 8 (i + 2)) := by
  simp [tlvHeader, memRead, h, tlvLongEscape, hl, shortHdr]

/-- Long form (R113). -/
theorem tlvHeader_long {blk : List Byte} {i : Nat} {hi lo : Byte} (h : blk[i + 1]? = some 0xFF#8)
    (h2 : blk[i + 2]? = some hi) (h3 : blk[i + 3]? = some lo) :
    tlvHeader blk i = .ok (bigEndian16 hi lo) (BitVec.ofNat 8 (i + 4)) := by
  simp [tlvHeader, memRead, h, h2, h3, tlvLongEscape, longHdr]

/-- The header does not fit: the long form's second length byte is missing (R115). -/
theorem tlvHeader_longPastEnd {blk : List Byte} {i : Nat} (h : blk[i + 1]? = some 0xFF#8) (h3 : blk[i + 3]? = none) :
    tlvHeader blk i = .malformed := by
  simp only [tlvHeader, memRead, h, h3]
  cases blk[i + 2]? <;> simp [tlvLongEscape]

/-- Big-endian: the byte at the lower offset weighs 256 (R42). -/
theorem bigEndian16_toNat (hi lo : Byte) : (bigEndian16 hi lo).toNat = 256 * hi.toNat + lo.toNat := by
  have h1 : hi.toNat < 256 := hi.isLt
  have h2 : lo.toNat < 256 := lo.isLt
  rw [bigEndian16, BitVec.toNat_setWidth, BitVec.toNat_append, Nat.shiftLeft_eq, Nat.mul_comm, ← Nat.two_pow_add_eq_or_of_lt h2]
  omega

end Sys2Proof.Machine
end

