-- ==== Sys2Proof/Tests/Slice0.lean ====
section
/-! SUPPORT. The model's own tests. Expected values are copied from spec/95_test_vectors.md (the vector's name stands
with the test) or written out from the layouts of spec/30_encoding.md; the witnesses show that the hypotheses of each
statement can be met, at the ends of their ranges. -/

-- One theorem at a time: a thread each with a deep stack would ask for more memory than a check allows.
set_option Elab.async false

namespace Sys2Proof.Tests
open Sys2Proof Sys2Proof.Machine Sys2Proof.Claims

/-- A block with the given parameter and request bytes on its port. -/
def port (hasFmt : Bool) (bytes : List Byte) : State :=
  { State.reset with cfg := { hasFmt := hasFmt }, req := BitVec.ofNat 136 (packBytes bytes) }

/-- The response bytes of one step. -/
def answer (s : State) : List Byte :=
  match step s with
  | .next t => t.rsp.bytes
  | .fault _ => []
  | .refused _ => []

/-- The characters of one step's string output. -/
def text (s : State) : List Byte :=
  match step s with
  | .next t => (List.range t.rsp.strLen.toNat).map t.rsp.cell
  | .fault _ => []
  | .refused _ => []

/-- A block operand that is padding but for its last bytes. -/
def padded (tail : List Byte) : List Byte := List.replicate (16 - tail.length) 0#8 ++ tail

/-! ### WellFormed: an ill-formed term for each check -/

theorem test_wellFormed_tlvdec_short : Instr.wellFormed (.tlvdec (List.replicate 15 3#8)) = false := by decide
theorem test_wellFormed_tlvdec_long : Instr.wellFormed (.tlvdec (List.replicate 17 3#8)) = false := by decide
theorem test_wellFormed_fmtuid : Instr.wellFormed (.fmtuid 3#8 [0x04, 0xA2, 0xFF]) = false := by decide
theorem test_wellFormed_fmtbytes : Instr.wellFormed (.fmtbytes 16#8 (List.replicate 16 0#8)) = false := by decide

/-! ### Decoding: a word for every constructor, written out from R60, R62 and R63 -/

/-- S3 with the ignored bits set (R65). -/
theorem test_decode_classify :
    decode 0xFFFFFFFFFFFFFFFFFFFFFFFF2003440701#136 = .ok (.classify 7#8 0x0344#16 0x20#8) := by decide +kernel
theorem test_decode_guess : decode 0xFF02#136 = .ok (.guess 255#8) := by decide +kernel
/-- V36: `blk[0]` lowest, `blk[15]` in the top byte. -/
theorem test_decode_tlvdec : decode 0x3412FF0300000000000000000000000003#136 =
    .ok (.tlvdec (padded [0x03, 0xFF, 0x12, 0x34])) := by decide +kernel
/-- V56. -/
theorem test_decode_ulsize : decode 0xFFFFFFF904#136 = .ok (.ulsize 0xFFFFFFF9#32) := by decide +kernel
/-- S10. -/
theorem test_decode_mcsize : decode 0x0000012C05#136 = .ok (.mcsize 300#32) := by decide +kernel
/-- S13. -/
theorem test_decode_isfirst : decode 0x8006#136 = .ok (.isfirst 128#8) := by decide +kernel
/-- S16. -/
theorem test_decode_istrail : decode 0x8F07#136 = .ok (.istrail 143#8) := by decide +kernel
/-- S20. -/
theorem test_decode_fmtuid : decode 0xFFA2040308#136 =
    .ok (.fmtuid 3#8 ([0x04, 0xA2, 0xFF] ++ List.replicate 12 0#8)) := by decide +kernel
/-- S21, with `data[14]` in the top byte. -/
theorem test_decode_fmtbytes : decode 0x7700000000000000000000000002010209#136 =
    .ok (.fmtbytes 2#8 ([0x01, 0x02] ++ List.replicate 12 0#8 ++ [0x77])) := by decide +kernel
/-- V102. -/
theorem test_decode_unassigned : decode (BitVec.allOnes 136) = .error (.unassignedOpcode 0xFF#8) := by decide +kernel
theorem test_decode_short_bytes : decodeBytes [0x06, 0x80] = .error (.notRequestLength 2) := by decide +kernel
theorem test_decodeTableWord : decodeTableWord 136 0x8F07 = some (.istrail 143#8) := by decide +kernel
/-- Bits above `nbits` are 0. -/
theorem test_decodeTableWord_opcode_only : decodeTableWord 8 0x8F07 = some (.istrail 0#8) := by decide +kernel

/-! ### One step, at most two vectors an operation -/

/-- S3. -/
theorem test_classify_desfire : answer (port false ([0x01, 0x07, 0x44, 0x03, 0x20] ++ List.replicate 12 0#8)) =
    [0x00, 0x04, 0, 0, 0, 0] := by decide +kernel
/-- V11: ATQA bytes swapped. -/
theorem test_classify_swapped : answer (port false ([0x01, 0x04, 0x00, 0x04, 0x08] ++ List.replicate 12 0#8)) =
    [0x00, 0x00, 0, 0, 0, 0] := by decide +kernel
/-- V14. -/
theorem test_guess_four : answer (port false ([0x02, 0x04] ++ List.replicate 15 0#8)) = [0x00, 0x02, 0, 0, 0, 0] := by
  decide +kernel
/-- V18. -/
theorem test_guess_five : answer (port false ([0x02, 0x05] ++ List.replicate 15 0#8)) = [0x00, 0x01, 0, 0, 0, 0] := by
  decide +kernel
/-- V36: big-endian, the last long form that fits. -/
theorem test_tlvdec_long : answer (port false (0x03 :: padded [0x03, 0xFF, 0x12, 0x34])) =
    [0x00, 0x34, 0x12, 0, 0, 0x10] := by decide +kernel
/-- V37. -/
theorem test_tlvdec_past_end : answer (port false (0x03 :: padded [0x03, 0xFF, 0x12])) = [0x02, 0, 0, 0, 0, 0] := by
  decide +kernel
/-- V52. -/
theorem test_ulsize_two : answer (port false ([0x04, 0x02] ++ List.replicate 15 0#8)) = [0x00, 0x08, 0, 0, 0, 0] := by
  decide +kernel
/-- V59: wrapped. -/
theorem test_ulsize_wraps : answer (port false ([0x04, 0xFE, 0xFF, 0xFF, 0xFF] ++ List.replicate 12 0#8)) =
    [0x00, 0x04, 0, 0, 0, 0] := by decide +kernel
/-- S10: tells the overhead 4 from 5 (C2). -/
theorem test_mcsize_long : answer (port false ([0x05, 0x2C, 0x01] ++ List.replicate 14 0#8)) =
    [0x00, 0x30, 0x01, 0, 0, 0] := by decide +kernel
/-- V62: on the multiple. -/
theorem test_mcsize_on_multiple : answer (port false ([0x05, 0x0D] ++ List.replicate 15 0#8)) =
    [0x00, 0x10, 0, 0, 0, 0] := by decide +kernel
/-- V84. -/
theorem test_isfirst_132 : answer (port false ([0x06, 0x84] ++ List.replicate 15 0#8)) = [0x00, 0, 0, 0, 0, 0] := by
  decide +kernel
/-- V82. -/
theorem test_isfirst_124 : answer (port false ([0x06, 0x7C] ++ List.replicate 15 0#8)) = [0x00, 1, 0, 0, 0, 0] := by
  decide +kernel
/-- V94. -/
theorem test_istrail_131 : answer (port false ([0x07, 0x83] ++ List.replicate 15 0#8)) = [0x00, 0, 0, 0, 0, 0] := by
  decide +kernel
/-- V98. -/
theorem test_istrail_255 : answer (port false ([0x07, 0xFF] ++ List.replicate 15 0#8)) = [0x00, 1, 0, 0, 0, 0] := by
  decide +kernel
/-- S20. -/
theorem test_fmtuid_text : text (port true ([0x08, 0x03, 0x04, 0xA2, 0xFF] ++ List.replicate 12 0#8)) =
    [0x30, 0x34, 0x2D, 0x41, 0x32, 0x2D, 0x46, 0x46] := by decide +kernel
/-- V103: the formatter is absent. -/
theorem test_fmtuid_absent : answer (port false ([0x08, 0x03, 0x04, 0xA2, 0xFF] ++ List.replicate 12 0#8)) =
    [0x03, 0, 0, 0, 0, 0] := by decide +kernel
/-- V114: the byte beyond `len` is ignored. -/
theorem test_fmtbytes_text : text (port true ([0x09, 0x02, 0xAB, 0xCD, 0xEE] ++ List.replicate 12 0#8)) =
    [0x41, 0x42, 0x20, 0x43, 0x44] := by decide +kernel
/-- V111. -/
theorem test_fmtbytes_empty : answer (port true ([0x09, 0x00, 0xAA, 0xBB] ++ List.replicate 13 0#8)) =
    [0x04, 0, 0, 0, 0, 0] := by decide +kernel

/-! ### Witnesses: the hypotheses of the statements can be met -/

theorem witness_StepRunsDecodedRequest :
    decode (port false ([0x06, 0x80] ++ List.replicate 15 0#8)).req = .ok (.isfirst 128#8) ∧
    decode State.reset.req = .error (.unassignedOpcode 0#8) := by decide +kernel

theorem witness_TableWordRunsAsPlaced : decodeTableWord 136 0x8006 = some (.isfirst 128#8) := by decide +kernel

/-- Two blocks alike but for what stands on their outputs, and two alike but for the parameter. -/
theorem witness_ResponseDependsOnRequestAlone :
    (State.reset.cfg = (State.reset.setRsp (okRsp 7#32 2#8)).cfg ∧
      State.reset.req = (State.reset.setRsp (okRsp 7#32 2#8)).req ∧ State.reset ≠ State.reset.setRsp (okRsp 7#32 2#8)) ∧
    ((port true [0x07]).req = (port false [0x07]).req ∧ op (port true [0x07]).req < 8 ∧
      (port true [0x07]).cfg ≠ (port false [0x07]).cfg) := by decide +kernel

theorem witness_step_answers : step State.reset = .next State.reset := rfl

theorem witness_OpcodeMapIsExact :
    op 0x01#136 = 1 ∧ op 0x09#136 = 9 ∧ op 0x00#136 = 0 ∧ op 0x0A#136 = 10 ∧ op 0xFF#136 = 255 ∧
    decode 0x09#136 = .ok (.fmtbytes 0#8 (List.replicate 15 0#8)) := by decide +kernel

theorem witness_DecodeUndoesEncode :
    Instr.wellFormed (.tlvdec (padded [0xFF])) = true ∧
    Instr.wellFormed (.fmtuid 255#8 (List.replicate 15 0xFF#8)) = true ∧
    Instr.wellFormed (.classify 255#8 0xFFFF#16 255#8) = true := by decide

theorem witness_EncodeRestoresFields : decode 0xFFFF06#136 = .ok (.isfirst 255#8) := by decide +kernel

theorem witness_RequestIsSeventeenBytes :
    (([0x06, 0x80] ++ List.replicate 15 0#8 : List Byte).length = 17 ∧
      ∀ j < 17, ([0x06, 0x80] ++ List.replicate 15 0#8 : List Byte)[j]? = some (0x8006#136 |>.extractLsb' (8 * j) 8)) ∧
    (List.replicate 16 0#8).length ≠ 17 ∧ ([] : List Byte).length ≠ 17 := by decide +kernel

/-- An ISFIRST word and one with every ignored bit set; a one-byte FMTUID and one with other data beyond it. -/
theorem witness_IgnoredBitsHaveNoEffect :
    (∀ b < usedBits 0x8006#136, (0xFFFFFF8006#136).getLsbD b = (0x8006#136).getLsbD b) ∧ usedBits 0x8006#136 = 16 ∧
    (∀ b < usedBits 0xAA0108#136, (0xBBAA0108#136).getLsbD b = (0xAA0108#136).getLsbD b) ∧
    usedBits 0xAA0108#136 = 24 := by decide +kernel

theorem witness_UnassignedOpcodeIsIllegal :
    Unassigned { hasFmt := true } 0 ∧ Unassigned { hasFmt := true } 0x0A ∧ Unassigned { hasFmt := true } 0xFF ∧
    Unassigned { hasFmt := false } 8 ∧ Unassigned { hasFmt := false } 9 ∧
    ¬ Unassigned { hasFmt := true } 8 ∧ ¬ Unassigned { hasFmt := false } 7 ∧
    op (port false [0x09]).req = 9 := by unfold Unassigned; decide +kernel

theorem witness_FailureCausesAreExact :
    step (port false [0x03]) = .next ((port false [0x03]).setRsp (failRsp .notFound)) ∧
    (List.replicate 16 0#8).length = 16 ∧
    ∀ k < 16, (List.replicate 16 0#8)[k]? = some ((port false [0x03]).req.extractLsb' (8 * k + 8) 8) :=
  ⟨rfl, by decide, by decide +kernel⟩

theorem witness_operation_words :
    op 0x2003440701#136 = 1 ∧ op 0x0402#136 = 2 ∧ op 0x03#136 = 3 ∧ op 0x04#136 = 4 ∧ op 0x05#136 = 5 ∧
    op 0x06#136 = 6 ∧ op 0x07#136 = 7 ∧ op 0x08#136 = 8 ∧ op 0x09#136 = 9 := by decide +kernel

/-- Every clause of TLVDEC, at the offsets where they meet. -/
theorem witness_TlvdecFollowsPseudocode :
    (padded []).length = 16 ∧ AllPadding (padded []) ∧
    (FirstNonPad (padded [0x02]) 15 0x02#8 ∧ (0x02#8 : Byte) ≠ 0x03#8) ∧
    (FirstNonPad (padded [0x03]) 15 0x03#8 ∧ (padded [0x03])[15 + 1]? = none) ∧
    (FirstNonPad (padded [0x03, 0xFE]) 14 0x03#8 ∧ (padded [0x03, 0xFE])[14 + 1]? = some 0xFE#8) ∧
    (FirstNonPad (padded [0x03, 0xFF]) 14 0x03#8 ∧ (padded [0x03, 0xFF])[14 + 1]? = some 0xFF#8 ∧
      (padded [0x03, 0xFF])[14 + 3]? = none) ∧
    (FirstNonPad (padded [0x03, 0xFF, 0x12]) 13 0x03#8 ∧ (padded [0x03, 0xFF, 0x12])[13 + 3]? = none) ∧
    (FirstNonPad (padded [0x03, 0xFF, 0x12, 0x34]) 12 0x03#8 ∧
      (padded [0x03, 0xFF, 0x12, 0x34])[12 + 1]? = some 0xFF#8 ∧
      (padded [0x03, 0xFF, 0x12, 0x34])[12 + 2]? = some 0x12#8 ∧
      (padded [0x03, 0xFF, 0x12, 0x34])[12 + 3]? = some 0x34#8) := by
  unfold AllPadding FirstNonPad; decide +kernel

theorem witness_TlvHeaderPastBlockIsMalformed :
    HeaderPastBlock (padded [0x03]) 15 ∧ HeaderPastBlock (padded [0x03, 0xFF]) 14 ∧
    HeaderPastBlock (padded [0x03, 0xFF, 0x12]) 13 ∧ ¬ HeaderPastBlock (padded [0x03, 0xFE]) 14 ∧
    ¬ HeaderPastBlock (padded [0x03, 0x07, 0xAA]) 13 ∧ ¬ HeaderPastBlock (padded [0x03, 0xFF, 0x12, 0x34]) 12 := by
  unfold HeaderPastBlock; decide +kernel

/-- V39 and another block with the same bytes below the start index (here all of them); S5 and V47 differ above it. -/
theorem witness_TlvPayloadIsNotExamined (s : State) :
    exec (.tlvdec (padded [0x03, 0x20])) s = .next (s.setRsp (okRsp 32#32 16#8)) ∧
    exec (.tlvdec ([0, 0, 3, 0x10] ++ List.replicate 12 0#8)) s = .next (s.setRsp (okRsp 16#32 4#8)) ∧
    (∀ j < (4#8).toNat, ([0, 0, 3, 0x10] ++ List.replicate 12 0xFF#8 : List Byte)[j]? =
      ([0, 0, 3, 0x10] ++ List.replicate 12 0#8 : List Byte)[j]?) :=
  ⟨rfl, rfl, by decide⟩

theorem witness_TlvRoundTrip :
    (254 ≤ 254 ∧ 14 ≤ 14 ∧ 14 + 2 + ([] : List Byte).length = 16) ∧
    (0 ≤ 254 ∧ 0 ≤ 14 ∧ 0 + 2 + (List.replicate 14 0xFF#8).length = 16) ∧
    (65535 ≤ 65535 ∧ 12 ≤ 12 ∧ 12 + 4 + ([] : List Byte).length = 16) ∧
    (0 ≤ 65535 ∧ 0 ≤ 12 ∧ 0 + 4 + (List.replicate 12 0xFF#8).length = 16) := by decide

/-- A value at each end of each range of R123. -/
theorem witness_SizesWrapAsListed :
    (0xFFFFFFF9#32).toNat ≤ 0xFFFFFFF9 ∧ 0xFFFFFFFA ≤ (0xFFFFFFFA#32).toNat ∧ (0xFFFFFFFD#32).toNat ≤ 0xFFFFFFFD ∧
    0xFFFFFFFE ≤ (0xFFFFFFFE#32).toNat ∧ (0xFFFFFFEC#32).toNat ≤ 0xFFFFFFEC ∧ 0xFFFFFFED ≤ (0xFFFFFFED#32).toNat ∧
    (0xFFFFFFFC#32).toNat ≤ 0xFFFFFFFC ∧ 0xFFFFFFFD ≤ (0xFFFFFFFF#32).toNat := by decide

theorem witness_SizesCoverMessage :
    (254#32).toNat ≤ (255#32).toNat ∧ (255#32).toNat ≤ 0xFFFFFFEC ∧ (0#32).toNat ≤ (0xFFFFFFF9#32).toNat ∧
    (0xFFFFFFF9#32).toNat ≤ 0xFFFFFFF9 := by decide

theorem witness_positions (s : State) :
    FirstFormula 124 ∧ FirstFormula 128 ∧ ¬ FirstFormula 127 ∧ ¬ FirstFormula 132 ∧
    TrailerFormula 127 ∧ TrailerFormula 255 ∧ ¬ TrailerFormula 128 ∧ ¬ TrailerFormula 131 ∧
    exec (.isfirst 128#8) s = .next (s.setRsp (okRsp 1#32 0#8)) ∧
    exec (.istrail 143#8) s = .next (s.setRsp (okRsp 1#32 0#8)) ∧
    sectorOf (143#8).toNat = sectorOf (128#8).toNat ∧ (254#8).toNat ≤ 254 := by
  refine ⟨?_, ?_, ?_, ?_, ?_, ?_, ?_, ?_, rfl, rfl, ?_, ?_⟩ <;>
    first | (unfold FirstFormula; decide) | (unfold TrailerFormula; decide) | decide

theorem witness_formatter :
    (List.replicate 15 0xA5#8).length = 15 ∧ (port true []).cfg.hasFmt = true ∧ (port false []).cfg.hasFmt = false ∧
    1 ≤ (1#8).toNat ∧ (15#8).toNat ≤ 15 ∧ 15 < (16#8).toNat ∧ 15 < (255#8).toNat := by decide

theorem witness_StringOutputsOnlyFromFormatter :
    op (port true [0x08, 0x01, 0x9A]).req = 8 ∧ op (port true [0x09]).req = 9 ∧ op (port true [0x07]).req ≠ 8 ∧
    answer (port true [0x08, 0x01, 0x9A]) = [0x00, 0x02, 0, 0, 0, 0] ∧ text (port true [0x08, 0x01, 0x9A]) = [0x39, 0x41] := by
  decide +kernel

end Sys2Proof.Tests
end

/-! ## Proofs: the response is a function of the request word (10_state.md R20) -/

namespace Sys2Proof

/-- The decoder yields an instruction only for the opcode of its own row (R62). -/
theorem opcode_eq_opField_of_decode {w : ReqWord} {i : Instr} (h : decode w = .ok i) : opcode i = opField w := by
  rcases decode_cases w with ⟨hop, hd⟩ | ⟨hop, hd⟩ | ⟨hop, hd⟩ | ⟨hop, hd⟩ | ⟨hop, hd⟩ | ⟨hop, hd⟩ | ⟨hop, hd⟩ |
    ⟨hop, hd⟩ | ⟨hop, hd⟩ | ⟨-, hd⟩ <;> cases hd.symm.trans h
  all_goals exact hop.symm

end Sys2Proof

namespace Sys2Proof.Machine

/-- The outputs are all that distinguishes two blocks built alike with the same word on the port (R20). -/
theorem State.setRsp_congr {s t : State} (hcfg : s.cfg = t.cfg) (hreq : s.req = t.req) (r : Response) :
    s.setRsp r = t.setRsp r := by
  simp [State.setRsp, hcfg, hreq]

theorem step_of_decode_ok {s : State} {i : Instr} (h : decode s.req = .ok i) : step s = exec i s := by
  simp [step, h]

theorem step_of_decode_error {s : State} {e : Reject} (h : decode s.req = .error e) :
    step s = raise .illegalOp s := by
  simp [step, h]

/-- Only the formatter's rows read the parameter (R24): below opcode 8 the instruction alone determines the response. -/
theorem exec_drives_response_of_opcode_lt {i : Instr} (h : (opcode i).toNat < 8) :
    ∃ r, ∀ s : State, exec i s = .next (s.setRsp r) := by
  cases i with
  | classify uidLen atqa sak => exact ⟨_, returnVal_eq _⟩
  | guess uidLen => exact ⟨_, returnVal_eq _⟩
  | tlvdec blk =>
    show ∃ r, ∀ s : State, endTlv (tlvDecode blk) s = .next (s.setRsp r)
    cases tlvDecode blk with
    | ok v k => exact ⟨_, returnPair_eq v k⟩
    | notFound => exact ⟨_, raise_eq .notFound⟩
    | malformed => exact ⟨_, raise_eq .malformed⟩
  | ulsize messageLength => exact ⟨_, returnVal_eq _⟩
  | mcsize messageLength => exact ⟨_, returnVal_eq _⟩
  | isfirst n => exact ⟨_, returnVal_eq _⟩
  | istrail n => exact ⟨_, returnVal_eq _⟩
  | fmtuid len data => simp [opcode] at h
  | fmtbytes len data => simp [opcode] at h

/-- Every step drives one response, which the word on the port and the parameter determine, and changes nothing else
(R20, R160). -/
theorem step_drives_response (w : ReqWord) (c : Config) :
    ∃ r, ∀ s : State, s.req = w → s.cfg = c → step s = .next (s.setRsp r) := by
  cases hd : decode w with
  | ok i =>
    obtain ⟨r, hr⟩ := exec_drives_response i c
    exact ⟨r, fun s hreq hcfg => (step_of_decode_ok (hreq ▸ hd)).trans (hr s hcfg)⟩
  | error e => exact ⟨_, fun s hreq _ => (step_of_decode_error (hreq ▸ hd)).trans (raise_eq .illegalOp s)⟩

/-- Below opcode 8 the word on the port alone determines the response (R20, R24). -/
theorem step_drives_response_of_opcode_lt {w : ReqWord} (h : (opField w).toNat < 8) :
    ∃ r, ∀ s : State, s.req = w → step s = .next (s.setRsp r) := by
  cases hd : decode w with
  | ok i =>
    obtain ⟨r, hr⟩ := exec_drives_response_of_opcode_lt (i := i) (by rwa [opcode_eq_opField_of_decode hd])
    exact ⟨r, fun s hreq => (step_of_decode_ok (hreq ▸ hd)).trans (hr s)⟩
  | error e => exact ⟨_, fun s hreq => (step_of_decode_error (hreq ▸ hd)).trans (raise_eq .illegalOp s)⟩

/-- Settles O6: one response serves every block with the same word and parameter, and below opcode 8 every block with
the same word. -/
theorem responseDependsOnRequestAlone : Obligations.ResponseDependsOnRequestAlone := by
  unfold Obligations.ResponseDependsOnRequestAlone
  refine ⟨fun s t hcfg hreq => ?_, fun s t hreq hop => ?_⟩
  · obtain ⟨r, hr⟩ := step_drives_response t.req t.cfg
    rw [hr s hreq hcfg, hr t rfl rfl, State.setRsp_congr hcfg hreq]
  · obtain ⟨r, hr⟩ := step_drives_response_of_opcode_lt (w := s.req) hop
    exact ⟨r, hr s rfl, hr t hreq.symm⟩

end Sys2Proof.Machine

/-! ## Proofs: the bytes after the TLV header are not examined (20_memory.md R45) -/

namespace Sys2Proof.Machine
open Sys2Proof.Claims

/-- The first byte that is no padding stands behind a run of padding (R111). -/
theorem firstNonPad_iff {blk : List Byte} {i : Nat} {b : Byte} :
    FirstNonPad blk i b ↔ b ≠ 0#8 ∧ ∃ rest, blk = List.replicate i 0#8 ++ b :: rest := by
  constructor
  · rintro ⟨hb, hne, hpad⟩
    obtain ⟨hi, rfl⟩ := List.getElem?_eq_some_iff.mp hb
    have hrun : blk.take i = List.replicate i 0#8 := by
      refine List.ext_getElem? fun k => ?_
      rw [List.getElem?_take, List.getElem?_replicate]
      split
      · next hk => exact hpad k hk
      · rfl
    exact ⟨hne, blk.drop (i + 1), by rw [← hrun, List.cons_getElem_drop_succ, List.take_append_drop]⟩
  · rintro ⟨hne, rest, rfl⟩
    exact ⟨by simp, hne, fun k hk => by simp [List.getElem?_append, hk]⟩

/-- A block has a first byte that is no padding, or is padding throughout (R111). -/
theorem exists_firstNonPad_or_eq_replicate (blk : List Byte) :
    (∃ i b, FirstNonPad blk i b) ∨ blk = List.replicate blk.length 0#8 := by
  simp only [firstNonPad_iff]
  induction blk with
  | nil => exact .inr rfl
  | cons a rest ih =>
    by_cases ha : a = 0#8
    · subst ha
      obtain ⟨i, b, hb, tail, rfl⟩ | hpad := ih
      · exact .inl ⟨i + 1, b, hb, tail, rfl⟩
      · exact .inr (congrArg (List.cons 0#8) hpad)
    · exact .inl ⟨0, a, ha, rest, rfl⟩

/-- Blocks that agree up to the first byte that is no padding share it. -/
theorem firstNonPad_congr {blk blk' : List Byte} {i : Nat} {b : Byte} (h : FirstNonPad blk i b)
    (hagree : ∀ j ≤ i, blk'[j]? = blk[j]?) : FirstNonPad blk' i b := by
  obtain ⟨hb, hne, hpad⟩ := h
  exact ⟨(hagree i le_rfl).trans hb, hne, fun k hk => (hagree k hk.le).trans (hpad k hk)⟩

/-- A block of padding alone has no message (R111). -/
theorem tlvDecode_replicate_zero (n : Nat) : tlvDecode (List.replicate n 0#8) = .notFound := by
  have h := tlvScan_padding (List.replicate n 0#8) 0 n []
  rwa [List.append_nil] at h

/-- The first byte that is no padding ends the scan (R111). -/
theorem tlvDecode_of_firstNonPad {blk : List Byte} {i : Nat} {b : Byte} (h : FirstNonPad blk i b) :
    tlvDecode blk = if b = 0x03#8 then tlvHeader blk i else .malformed := by
  obtain ⟨hne, rest, hblk⟩ := firstNonPad_iff.mp h
  calc tlvDecode blk = tlvScan blk 0 (List.replicate i 0#8 ++ b :: rest) := by rw [← hblk, tlvDecode]
    _ = tlvScan blk i (b :: rest) := by rw [tlvScan_padding, Nat.zero_add]
    _ = if b = 0x03#8 then tlvHeader blk i else .malformed := tlvScan_decides blk i b rest hne

/-- The parser succeeds exactly with the header at the NDEF tag that the scan finds (R110). -/
theorem tlvDecode_eq_ok_iff {blk : List Byte} {v : Word} {k : Byte} :
    tlvDecode blk = .ok v k ↔ ∃ i, FirstNonPad blk i 0x03#8 ∧ tlvHeader blk i = .ok v k := by
  constructor
  · intro hok
    obtain ⟨i, b, hfirst⟩ | hpad := exists_firstNonPad_or_eq_replicate blk
    · rw [tlvDecode_of_firstNonPad hfirst] at hok
      split at hok
      · next hb => exact ⟨i, hb ▸ hfirst, hok⟩
      · cases hok
    · rw [hpad, tlvDecode_replicate_zero] at hok
      cases hok
  · rintro ⟨i, hfirst, hok⟩
    rw [tlvDecode_of_firstNonPad hfirst, if_pos rfl, hok]

/-- The two headers that succeed, and the bytes each is read from (R112, R113). -/
theorem tlvHeader_ok_cases {blk : List Byte} {i : Nat} {v : Word} {k : Byte} (h : tlvHeader blk i = .ok v k) :
    (∃ l, blk[i + 1]? = some l ∧ l ≠ 0xFF#8 ∧ v = l.setWidth 32 ∧ k = BitVec.ofNat 8 (i + 2)) ∨
    ∃ hi lo, blk[i + 1]? = some 0xFF#8 ∧ blk[i + 2]? = some hi ∧ blk[i + 3]? = some lo ∧
      v = bigEndian16 hi lo ∧ k = BitVec.ofNat 8 (i + 4) := by
  cases h1 : blk[i + 1]? with
  | none => rw [tlvHeader_noLength h1] at h; cases h
  | some l =>
    by_cases hl : l = 0xFF#8
    · subst hl
      cases h3 : blk[i + 3]? with
      | none => rw [tlvHeader_longPastEnd h1 h3] at h; cases h
      | some lo =>
        have hlt : i + 2 < blk.length := by
          have := (List.getElem?_eq_some_iff.mp h3).1
          omega
        have h2 : blk[i + 2]? = some blk[i + 2] := List.getElem?_eq_getElem hlt
        rw [tlvHeader_long h1 h2 h3] at h
        cases h
        exact .inr ⟨_, lo, rfl, h2, rfl, rfl, rfl⟩
    · rw [tlvHeader_short h1 hl] at h
      cases h
      exact .inl ⟨l, rfl, hl, rfl, rfl⟩

/-- A header that succeeds is read from bytes below the start index it reports alone, and the tag is
one of them (R45). The block's length keeps that index from wrapping. -/
theorem tlvHeader_ok_congr {blk blk' : List Byte} {i : Nat} {v : Word} {k : Byte} (hlen : blk.length = 16)
    (h : tlvHeader blk i = .ok v k) (hagree : ∀ j < k.toNat, blk'[j]? = blk[j]?) :
    i < k.toNat ∧ tlvHeader blk' i = .ok v k := by
  obtain ⟨l, h1, hl, rfl, rfl⟩ | ⟨hi, lo, h1, h2, h3, rfl, rfl⟩ := tlvHeader_ok_cases h
  · have hfit := (List.getElem?_eq_some_iff.mp h1).1
    have hk : (BitVec.ofNat 8 (i + 2)).toNat = i + 2 := by rw [BitVec.toNat_ofNat]; omega
    rw [hk] at hagree ⊢
    exact ⟨by omega, tlvHeader_short ((hagree _ (by omega)).trans h1) hl⟩
  · have hfit := (List.getElem?_eq_some_iff.mp h3).1
    have hk : (BitVec.ofNat 8 (i + 4)).toNat = i + 4 := by rw [BitVec.toNat_ofNat]; omega
    rw [hk] at hagree ⊢
    exact ⟨by omega, tlvHeader_long ((hagree _ (by omega)).trans h1) ((hagree _ (by omega)).trans h2)
      ((hagree _ (by omega)).trans h3)⟩

theorem exec_tlvdec (blk : List Byte) (s : State) : exec (.tlvdec blk) s = endTlv (tlvDecode blk) s := rfl

/-- The block's OK response stands for a success of the parser (R110). -/
theorem exec_tlvdec_eq_okRsp_iff {blk : List Byte} {s : State} {v : Word} {k : Byte} :
    exec (.tlvdec blk) s = .next (s.setRsp (okRsp v k)) ↔ tlvDecode blk = .ok v k := by
  obtain ⟨v', k', hr, he⟩ | ⟨hr, he⟩ | ⟨hr, he⟩ := endTlv_cases (tlvDecode blk) s <;>
    rw [exec_tlvdec, he, hr, next_inj] <;> simp [State.setRsp, okRsp]

/-- Settles O27: the scan ends at the tag and the header is read below the start index, so a block that agrees there
decodes alike. -/
theorem tlvPayloadIsNotExamined : Obligations.TlvPayloadIsNotExamined := by
  unfold Obligations.TlvPayloadIsNotExamined
  intro blk blk' s v k hlen _ hexec hagree
  obtain ⟨i, hfirst, hhdr⟩ := tlvDecode_eq_ok_iff.mp (exec_tlvdec_eq_okRsp_iff.mp hexec)
  obtain ⟨hik, hhdr'⟩ := tlvHeader_ok_congr hlen hhdr hagree
  have hfirst' : FirstNonPad blk' i 0x03#8 := firstNonPad_congr hfirst fun j hj => hagree j (by omega)
  exact exec_tlvdec_eq_okRsp_iff.mpr (tlvDecode_eq_ok_iff.mpr ⟨i, hfirst', hhdr'⟩)

end Sys2Proof.Machine

/-! ## Proofs: ignored bits, unassigned opcodes and the string outputs (30_encoding.md R65, R66, R72) -/

namespace Sys2Proof.Machine
open Sys2Proof.Claims

/-! ### The opcode as a number (R60, R62) -/

/-- The claims' opcode number is the decoder's opcode byte (R60). -/
theorem op_eq_iff {w : ReqWord} {n : Nat} (hn : n < 256) : op w = n ↔ opField w = BitVec.ofNat 8 n := by
  have hop : op w = (opField w).toNat := rfl
  rw [hop, BitVec.toNat_eq, BitVec.toNat_ofNat, Nat.mod_eq_of_lt hn]

theorem op_eq_opcode_of_decode {w : ReqWord} {i : Instr} (h : decode w = .ok i) : op w = (opcode i).toNat :=
  congrArg BitVec.toNat (opcode_eq_opField_of_decode h).symm

/-- No row of the map has opcode 0 or an opcode from 0x0A on (R66). -/
theorem decode_of_op_not_row {w : ReqWord} (h : op w = 0 ∨ 10 ≤ op w) :
    decode w = .error (.unassignedOpcode (opField w)) := by
  have hne : ∀ n, n ≠ 0 → n < 10 → opField w ≠ BitVec.ofNat 8 n := by
    intro n hpos hlt heq
    have := (op_eq_iff (by omega)).mpr heq
    omega
  simp [decode, hne]

/-! ### Unassigned opcodes (R66) -/

theorem formatWith_of_absent {s : State} (h : s.cfg.hasFmt = false) (sep len : Byte) (data : List Byte) :
    formatWith sep len data s = raise .illegalOp s := by
  simp [formatWith, h]

/-- An unassigned opcode is no row of the map, or a row of the formatter in a block without it (R66). -/
theorem step_of_unassigned {s : State} (h : Unassigned s.cfg (op s.req)) : step s = raise .illegalOp s := by
  have hrow : (op s.req = 0 ∨ 10 ≤ op s.req) ∨ s.cfg.hasFmt = false ∧ (op s.req = 8 ∨ op s.req = 9) :=
    or_assoc.mpr h
  obtain hnone | ⟨hfmt, h8 | h9⟩ := hrow
  · exact step_of_decode_error (decode_of_op_not_row hnone)
  · exact (step_of_decode_ok (decode_fmtuid ((op_eq_iff (by decide)).mp h8))).trans (formatWith_of_absent hfmt ..)
  · exact (step_of_decode_ok (decode_fmtbytes ((op_eq_iff (by decide)).mp h9))).trans (formatWith_of_absent hfmt ..)

/-- Settles O17: every way an opcode is unassigned ends in the same failure. -/
theorem unassignedOpcodeIsIllegal : Obligations.UnassignedOpcodeIsIllegal := by
  unfold Obligations.UnassignedOpcodeIsIllegal
  intro s h
  exact ⟨(step_of_unassigned h).trans (raise_eq .illegalOp s), by decide⟩

/-! ### Ignored bits (R65) -/

/-- Two request words have the same bits below bit `n`. -/
def AgreeBelow (n : Nat) (w v : ReqWord) : Prop := ∀ b < n, w.getLsbD b = v.getLsbD b

namespace AgreeBelow

variable {n : Nat} {w v : ReqWord}

theorem extractLsb'_eq (h : AgreeBelow n w v) {lo len : Nat} (hfit : lo + len ≤ n) :
    w.extractLsb' lo len = v.extractLsb' lo len := by
  apply BitVec.eq_of_getLsbD_eq
  intro b hb
  rw [BitVec.getLsbD_extractLsb', BitVec.getLsbD_extractLsb', h (lo + b) (by omega)]

theorem opField_eq (h : AgreeBelow n w v) (hn : 8 ≤ n) : opField w = opField v := h.extractLsb'_eq hn
theorem byteField_eq (h : AgreeBelow n w v) (hn : 16 ≤ n) : byteField w = byteField v := h.extractLsb'_eq hn
theorem atqaField_eq (h : AgreeBelow n w v) (hn : 32 ≤ n) : atqaField w = atqaField v := h.extractLsb'_eq hn
theorem sakField_eq (h : AgreeBelow n w v) (hn : 40 ≤ n) : sakField w = sakField v := h.extractLsb'_eq hn
theorem lengthField_eq (h : AgreeBelow n w v) (hn : 40 ≤ n) : lengthField w = lengthField v := h.extractLsb'_eq hn

/-- The first `k` data bytes of format F lie below bit 16 + 8k (R63). -/
theorem take_dataField_eq {k : Nat} (h : AgreeBelow n w v) (hn : 16 + 8 * k ≤ n) :
    (dataField w).take k = (dataField v).take k := by
  simp only [dataField, ← List.map_take, List.take_range]
  refine List.map_congr_left fun j hj => h.extractLsb'_eq ?_
  have := List.mem_range.mp hj
  omega

/-- Words that agree throughout are the same word. -/
theorem eq_of_width (h : AgreeBelow 136 w v) : w = v := BitVec.eq_of_getLsbD_eq h

end AgreeBelow

theorem eight_le_usedBits (v : ReqWord) : 8 ≤ usedBits v := by
  unfold usedBits
  split <;> omega

/-- Outside the formatter the used bits determine what the decoder reads (R63, R65). -/
theorem decode_congr_of_agreeBelow_usedBits {w v : ReqWord} (h : AgreeBelow (usedBits v) w v)
    (h8 : op v ≠ 8) (h9 : op v ≠ 9) : decode w = decode v := by
  have hop : opField w = opField v := h.opField_eq (eight_le_usedBits v)
  have hrow : ∀ {n}, n < 256 → op v = n → opField v = BitVec.ofNat 8 n ∧ opField w = BitVec.ofNat 8 n :=
    fun hn hv => ⟨(op_eq_iff hn).mp hv, hop.trans ((op_eq_iff hn).mp hv)⟩
  unfold usedBits at h
  split at h
  next hv =>
    obtain ⟨hv, hw⟩ := hrow (by decide) hv
    rw [decode_classify hv, decode_classify hw, h.byteField_eq (by decide), h.atqaField_eq (by decide),
      h.sakField_eq (by decide)]
  next hv =>
    obtain ⟨hv, hw⟩ := hrow (by decide) hv
    rw [decode_guess hv, decode_guess hw, h.byteField_eq (by decide)]
  next => rw [h.eq_of_width]
  next hv =>
    obtain ⟨hv, hw⟩ := hrow (by decide) hv
    rw [decode_ulsize hv, decode_ulsize hw, h.lengthField_eq (by decide)]
  next hv =>
    obtain ⟨hv, hw⟩ := hrow (by decide) hv
    rw [decode_mcsize hv, decode_mcsize hw, h.lengthField_eq (by decide)]
  next hv =>
    obtain ⟨hv, hw⟩ := hrow (by decide) hv
    rw [decode_isfirst hv, decode_isfirst hw, h.byteField_eq (by decide)]
  next hv =>
    obtain ⟨hv, hw⟩ := hrow (by decide) hv
    rw [decode_istrail hv, decode_istrail hw, h.byteField_eq (by decide)]
  next hv => exact absurd hv h8
  next hv => exact absurd hv h9
  next =>
    have hnone : op v = 0 ∨ 10 ≤ op v := by
      simp only [imp_false] at *
      omega
    have hopw : op w = op v := congrArg BitVec.toNat hop
    rw [decode_of_op_not_row hnone, decode_of_op_not_row (hopw ▸ hnone), hop]

/-- The formatter reads no data byte at or beyond `len` (R65). -/
theorem formatWith_congr {len : Byte} {data data' : List Byte} (h : data.take len.toNat = data'.take len.toNat)
    (sep : Byte) (s : State) : formatWith sep len data s = formatWith sep len data' s := by
  simp only [formatWith, dataOperand, h]

/-- Words that decode to instructions with one meaning get one response. -/
theorem same_response_of_exec_eq {s : State} {w : ReqWord} {i j : Instr} (hs : decode s.req = .ok i)
    (hw : decode w = .ok j) (hexec : ∀ t, exec j t = exec i t) :
    ∃ r : Response, step s = .next (s.setRsp r) ∧ step (s.setReq w) = .next ((s.setReq w).setRsp r) := by
  obtain ⟨r, hr⟩ := exec_drives_response i s.cfg
  exact ⟨r, (step_of_decode_ok hs).trans (hr s rfl),
    (step_of_decode_ok hw).trans ((hexec _).trans (hr (s.setReq w) rfl))⟩

theorem same_response_of_decode_eq {s : State} {w : ReqWord} (h : decode w = decode s.req) :
    ∃ r : Response, step s = .next (s.setRsp r) ∧ step (s.setReq w) = .next ((s.setReq w).setRsp r) := by
  cases hd : decode s.req with
  | ok i => exact same_response_of_exec_eq hd (h.trans hd) fun _ => rfl
  | error e =>
    exact ⟨_, (step_of_decode_error hd).trans (raise_eq .illegalOp s),
      (step_of_decode_error (h.trans hd)).trans (raise_eq .illegalOp _)⟩

/-- A formatter request of either row, from bits that reach to the last data byte below `len`: the same `len`, and data
that no formatter tells apart (R65). -/
theorem formatter_operands_agree {w v : ReqWord} (h : AgreeBelow (16 + 8 * (byteField v).toNat) w v) :
    byteField w = byteField v ∧
    ∀ sep s, formatWith sep (byteField v) (dataField w) s = formatWith sep (byteField v) (dataField v) s :=
  ⟨h.byteField_eq (by omega), formatWith_congr (h.take_dataField_eq le_rfl)⟩

/-- Settles O16: outside the formatter the used bits determine the instruction; in it they determine the operands up
to data bytes that it does not read. -/
theorem ignoredBitsHaveNoEffect : Obligations.IgnoredBitsHaveNoEffect := by
  unfold Obligations.IgnoredBitsHaveNoEffect
  intro s w h
  have hagree : AgreeBelow (usedBits s.req) w s.req := h
  have hop : opField w = opField s.req := hagree.opField_eq (eight_le_usedBits _)
  by_cases h8 : op s.req = 8
  · have hs := (op_eq_iff (by decide)).mp h8
    rw [usedBits, h8] at hagree
    obtain ⟨hlen, hfmt⟩ := formatter_operands_agree hagree
    have hw : decode w = .ok (.fmtuid (byteField s.req) (dataField w)) := hlen ▸ decode_fmtuid (hop.trans hs)
    exact same_response_of_exec_eq (decode_fmtuid hs) hw (hfmt 0x2D#8)
  by_cases h9 : op s.req = 9
  · have hs := (op_eq_iff (by decide)).mp h9
    rw [usedBits, h9] at hagree
    obtain ⟨hlen, hfmt⟩ := formatter_operands_agree hagree
    have hw : decode w = .ok (.fmtbytes (byteField s.req) (dataField w)) := hlen ▸ decode_fmtbytes (hop.trans hs)
    exact same_response_of_exec_eq (decode_fmtbytes hs) hw (hfmt 0x20#8)
  exact same_response_of_decode_eq (decode_congr_of_agreeBelow_usedBits hagree h8 h9)

/-! ### The string outputs (R72) -/

/-- A formatter request fails, or ends with a string of at most 44 characters (R140, R143, R144). -/
theorem formatWith_raises_or_returnString (sep len : Byte) (data : List Byte) (s : State) :
    (∃ c, c ≠ .ok ∧ formatWith sep len data s = raise c s) ∨
    ∃ chars, s.cfg.hasFmt = true ∧ chars.length ≤ 44 ∧ formatWith sep len data s = returnString chars s := by
  obtain ⟨-, h⟩ | ⟨-, -, h⟩ | ⟨-, -, h⟩ | ⟨hfmt, -, hlen, h⟩ := formatWith_cases sep len data s
  · exact .inl ⟨.illegalOp, by decide, h⟩
  · exact .inl ⟨.emptyInput, by decide, h⟩
  · exact .inl ⟨.tooLong, by decide, h⟩
  · refine .inr ⟨_, hfmt, ?_, h⟩
    rw [hexString_length, List.length_take]
    omega

/-- Everything a meaning can do: fail, return values below opcode 8, return a string from 8 and 9 (R8, R72). -/
theorem exec_cases (i : Instr) (s : State) :
    (∃ c, c ≠ .ok ∧ exec i s = raise c s) ∨
    (∃ v k, (opcode i).toNat < 8 ∧ exec i s = returnPair v k s) ∨
    ∃ chars, ((opcode i).toNat = 8 ∨ (opcode i).toNat = 9) ∧ s.cfg.hasFmt = true ∧ chars.length ≤ 44 ∧
      exec i s = returnString chars s := by
  cases i with
  | classify uidLen atqa sak => exact .inr (.inl ⟨_, _, by simp [opcode], rfl⟩)
  | guess uidLen => exact .inr (.inl ⟨_, _, by simp [opcode], rfl⟩)
  | tlvdec blk =>
    obtain ⟨v, k, -, h⟩ | ⟨-, h⟩ | ⟨-, h⟩ := endTlv_cases (tlvDecode blk) s
    · exact .inr (.inl ⟨v, k, by simp [opcode], h⟩)
    · exact .inl ⟨.notFound, by decide, h⟩
    · exact .inl ⟨.malformed, by decide, h⟩
  | ulsize messageLength => exact .inr (.inl ⟨_, _, by simp [opcode], rfl⟩)
  | mcsize messageLength => exact .inr (.inl ⟨_, _, by simp [opcode], rfl⟩)
  | isfirst n => exact .inr (.inl ⟨_, _, by simp [opcode], rfl⟩)
  | istrail n => exact .inr (.inl ⟨_, _, by simp [opcode], rfl⟩)
  | fmtuid len data =>
    exact (formatWith_raises_or_returnString _ len data s).imp_right fun ⟨chars, h⟩ => .inr ⟨chars, .inl rfl, h⟩
  | fmtbytes len data =>
    exact (formatWith_raises_or_returnString _ len data s).imp_right fun ⟨chars, h⟩ => .inr ⟨chars, .inr rfl, h⟩

/-- Everything a step can do, by the opcode on the port: a failure, values from opcodes 1 to 7, or a string from
opcodes 8 and 9 (R160, R72). -/
theorem step_cases (s : State) :
    (∃ c, c ≠ .ok ∧ step s = raise c s) ∨
    (∃ v k, op s.req < 8 ∧ step s = returnPair v k s) ∨
    ∃ chars, (op s.req = 8 ∨ op s.req = 9) ∧ s.cfg.hasFmt = true ∧ chars.length ≤ 44 ∧
      step s = returnString chars s := by
  cases hd : decode s.req with
  | ok i =>
    rw [step_of_decode_ok hd, op_eq_opcode_of_decode hd]
    exact exec_cases i s
  | error e => exact .inl ⟨.illegalOp, by decide, step_of_decode_error hd⟩

/-- With `STR` 0 every cell is 0 (R72). -/
theorem strCell_of_str_eq_zero {r : Response} (h : r.str = 0#352) (j : Nat) : strCell r j = 0#8 := by
  rw [strCell, h, BitVec.extractLsb'_zero]

/-- Cell `j` of a returned string is its character `j`, 0 past its end (R72). -/
theorem extractLsb'_ofNat_packBytes_of_length_le {chars : List Byte} {j : Nat} (hfit : chars.length ≤ 44)
    (hj : chars.length ≤ j) : (BitVec.ofNat 352 (packBytes chars)).extractLsb' (8 * j) 8 = 0#8 := by
  rw [byteAt_ofNat_packBytes chars j (by omega), List.getD_eq_default _ _ hj]
  rfl

/-- Settles O41: a failure and a returned value carry no string, and a string's length and cells are those of its
characters. -/
theorem stringOutputsOnlyFromFormatter : Obligations.StringOutputsOnlyFromFormatter := by
  unfold Obligations.StringOutputsOnlyFromFormatter
  intro s t h
  obtain ⟨c, -, he⟩ | ⟨v, k, hop, he⟩ | ⟨chars, hop, -, hfit, he⟩ := step_cases s
  · rw [he, raise_eq, next_inj] at h
    subst h
    exact ⟨rfl, fun _ => ⟨rfl, rfl⟩, fun _ => ⟨rfl, rfl⟩, by simp, fun j _ _ => strCell_of_str_eq_zero rfl j⟩
  · rw [he, returnPair_eq, next_inj] at h
    subst h
    exact ⟨rfl, fun _ => ⟨rfl, rfl⟩, fun _ => by omega, by simp, fun j _ _ => strCell_of_str_eq_zero rfl j⟩
  · rw [he, returnString_eq, next_inj] at h
    subst h
    have hlen : (BitVec.ofNat 8 chars.length).toNat = chars.length := by
      rw [BitVec.toNat_ofNat]
      omega
    refine ⟨rfl, fun hno => ?_, fun _ => ⟨?_, rfl⟩, hlen.trans_le hfit, fun j hj _ => ?_⟩
    · obtain hfail | ⟨h8, h9⟩ := hno
      · exact absurd rfl hfail
      · exact (hop.elim h8 h9).elim
    · apply BitVec.eq_of_toNat_eq
      simp only [State.setRsp_rsp, BitVec.toNat_setWidth, hlen, BitVec.toNat_ofNat]
    · exact extractLsb'_ofNat_packBytes_of_length_le hfit (hlen.symm.trans_le hj)

end Sys2Proof.Machine

/-! ## Proofs: the two classifiers (40_classify.md R100, R101) -/

namespace Sys2Proof.Machine
open Sys2Proof.Claims

/-- The codes of R67 are distinct, so `VAL` tells the tag types apart. -/
theorem TagType.code_injective : Function.Injective TagType.code := by
  intro a b h
  cases a <;> cases b <;> simp [TagType.code] at h ⊢

/-! ### The decision table, row by row (R100) -/

section
variable {uidLen : Byte} {atqa : Atqa} {sak : Byte}

theorem classifyTag_of_classicRows (h : ClassicRows uidLen atqa sak) :
    classifyTag uidLen atqa sak = .mifareClassic := by
  obtain ⟨rfl, rfl, rfl⟩ | ⟨rfl, rfl, rfl⟩ := h <;> rfl

theorem classifyTag_of_ultralightRow (h : UltralightRow uidLen atqa sak) :
    classifyTag uidLen atqa sak = .mifareUltralight := by
  obtain ⟨rfl, rfl, rfl⟩ := h
  rfl

theorem classifyTag_of_desfireRow (h : DesfireRow uidLen atqa sak) :
    classifyTag uidLen atqa sak = .mifareDESFire := by
  obtain ⟨rfl, rfl, rfl⟩ := h
  rfl

theorem classifyTag_of_no_row
    (h : ¬ (ClassicRows uidLen atqa sak ∨ UltralightRow uidLen atqa sak ∨ DesfireRow uidLen atqa sak)) :
    classifyTag uidLen atqa sak = .unknown := by
  simp only [ClassicRows, UltralightRow, DesfireRow, not_or] at h
  obtain ⟨⟨h1, h2⟩, h3, h4⟩ := h
  rw [classifyTag, if_neg h1, if_neg h2, if_neg h3, if_neg h4]

/-- Everything the table can answer, and the row that answers it. -/
theorem classifyTag_cases (uidLen : Byte) (atqa : Atqa) (sak : Byte) :
    (ClassicRows uidLen atqa sak ∧ classifyTag uidLen atqa sak = .mifareClassic) ∨
    (UltralightRow uidLen atqa sak ∧ classifyTag uidLen atqa sak = .mifareUltralight) ∨
    (DesfireRow uidLen atqa sak ∧ classifyTag uidLen atqa sak = .mifareDESFire) ∨
    (¬ (ClassicRows uidLen atqa sak ∨ UltralightRow uidLen atqa sak ∨ DesfireRow uidLen atqa sak) ∧
      classifyTag uidLen atqa sak = .unknown) := by
  by_cases hrow : ClassicRows uidLen atqa sak ∨ UltralightRow uidLen atqa sak ∨ DesfireRow uidLen atqa sak
  · obtain hc | hu | hd := hrow
    · exact .inl ⟨hc, classifyTag_of_classicRows hc⟩
    · exact .inr (.inl ⟨hu, classifyTag_of_ultralightRow hu⟩)
    · exact .inr (.inr (.inl ⟨hd, classifyTag_of_desfireRow hd⟩))
  · exact .inr (.inr (.inr ⟨hrow, classifyTag_of_no_row hrow⟩))

theorem classifyTag_eq_mifareClassic_iff :
    classifyTag uidLen atqa sak = .mifareClassic ↔ ClassicRows uidLen atqa sak :=
  ⟨fun h => by simpa [h] using classifyTag_cases uidLen atqa sak, classifyTag_of_classicRows⟩

theorem classifyTag_eq_mifareUltralight_iff :
    classifyTag uidLen atqa sak = .mifareUltralight ↔ UltralightRow uidLen atqa sak :=
  ⟨fun h => by simpa [h] using classifyTag_cases uidLen atqa sak, classifyTag_of_ultralightRow⟩

theorem classifyTag_eq_mifareDESFire_iff :
    classifyTag uidLen atqa sak = .mifareDESFire ↔ DesfireRow uidLen atqa sak :=
  ⟨fun h => by simpa [h] using classifyTag_cases uidLen atqa sak, classifyTag_of_desfireRow⟩

theorem classifyTag_eq_unknown_iff :
    classifyTag uidLen atqa sak = .unknown ↔
      ¬ (ClassicRows uidLen atqa sak ∨ UltralightRow uidLen atqa sak ∨ DesfireRow uidLen atqa sak) :=
  ⟨fun h => by simpa [h] using classifyTag_cases uidLen atqa sak, classifyTag_of_no_row⟩

/-- Only GUESS produces Type2 (R100, corner cases). -/
theorem classifyTag_ne_type2 : classifyTag uidLen atqa sak ≠ .type2 :=
  fun h => by simpa [h] using classifyTag_cases uidLen atqa sak

end

/-! ### The guess (R101) -/

theorem guessTag_four : guessTag 4#8 = .mifareClassic := rfl

theorem guessTag_of_ne_four {uidLen : Byte} (h : uidLen ≠ 4#8) : guessTag uidLen = .type2 := if_neg h

/-! ### What the two operations answer -/

/-- Settles O19: the table's rows decide the tag type, and the codes of R67 carry that over to `VAL`. -/
theorem classifyFollowsTable : Obligations.ClassifyFollowsTable := by
  unfold Obligations.ClassifyFollowsTable
  refine ⟨fun w hop => decode_classify ((op_eq_iff (by decide)).mp hop), fun uidLen atqa sak s => ?_⟩
  have hcode (t : TagType) : (classifyTag uidLen atqa sak).code = t.code ↔ classifyTag uidLen atqa sak = t :=
    TagType.code_injective.eq_iff
  exact ⟨(classifyTag uidLen atqa sak).code, returnVal_eq _ s,
    (hcode .mifareClassic).trans classifyTag_eq_mifareClassic_iff,
    (hcode .mifareUltralight).trans classifyTag_eq_mifareUltralight_iff,
    (hcode .mifareDESFire).trans classifyTag_eq_mifareDESFire_iff,
    (hcode .unknown).trans classifyTag_eq_unknown_iff,
    (hcode .type2).not.mpr classifyTag_ne_type2⟩

/-- Settles O20: the length alone decides the guess. -/
theorem guessFollowsLength : Obligations.GuessFollowsLength := by
  unfold Obligations.GuessFollowsLength
  refine ⟨fun w hop => decode_guess ((op_eq_iff (by decide)).mp hop), fun uidLen s => ?_⟩
  refine ⟨(guessTag uidLen).code, returnVal_eq _ s, fun h => ?_, fun h => ?_⟩
  · rw [h, guessTag_four]
    rfl
  · rw [guessTag_of_ne_four h]
    rfl

end Sys2Proof.Machine

/-! ## Proofs: the TLV parser's results and the header round trip (41_tlv.md R110 to R117) -/

namespace Sys2Proof.Machine
open Sys2Proof.Claims

/-! ### The response tells the parser's results apart (R114) -/

/-- `STATUS` tells the three results apart, and a success has its two numbers in `VAL` and `IDX`. -/
theorem endTlv_injective (s : State) : Function.Injective (endTlv · s) := by
  intro r r' h
  cases r <;> cases r' <;> simp_all [endTlv, returnPair_eq, raise_eq, State.setRsp]

theorem exec_tlvdec_eq_notFound_iff {blk : List Byte} {s : State} :
    exec (.tlvdec blk) s = .next (s.setRsp (failRsp .notFound)) ↔ tlvDecode blk = .notFound :=
  (endTlv_injective s).eq_iff (b := .notFound)

theorem exec_tlvdec_eq_malformed_iff {blk : List Byte} {s : State} :
    exec (.tlvdec blk) s = .next (s.setRsp (failRsp .malformed)) ↔ tlvDecode blk = .malformed :=
  (endTlv_injective s).eq_iff (b := .malformed)

/-! ### The scan (R111) -/

theorem firstNonPad_lt_length {blk : List Byte} {i : Nat} {b : Byte} (h : FirstNonPad blk i b) : i < blk.length :=
  (List.getElem?_eq_some_iff.mp h.1).1

theorem allPadding_iff {blk : List Byte} (hlen : blk.length = 16) :
    AllPadding blk ↔ blk = List.replicate 16 0#8 := by
  rw [List.eq_replicate_iff]
  constructor
  · intro h
    refine ⟨hlen, fun b hb => ?_⟩
    obtain ⟨k, hk, rfl⟩ := List.mem_iff_getElem.mp hb
    exact (List.getElem?_eq_some_iff.mp (h k (hlen ▸ hk))).2
  · rintro ⟨-, h⟩ k hk
    exact List.getElem?_eq_some_iff.mpr ⟨hlen ▸ hk, h _ (List.getElem_mem _)⟩

theorem tlvDecode_of_allPadding {blk : List Byte} (hlen : blk.length = 16) (h : AllPadding blk) :
    tlvDecode blk = .notFound := by
  rw [(allPadding_iff hlen).mp h, tlvDecode_replicate_zero]

theorem tlvDecode_of_tag {blk : List Byte} {i : Nat} (h : FirstNonPad blk i 0x03#8) :
    tlvDecode blk = tlvHeader blk i := by
  rw [tlvDecode_of_firstNonPad h, if_pos rfl]

theorem tlvDecode_of_not_tag {blk : List Byte} {i : Nat} {b : Byte} (h : FirstNonPad blk i b) (hb : b ≠ 0x03#8) :
    tlvDecode blk = .malformed := by
  rw [tlvDecode_of_firstNonPad h, if_neg hb]

/-! ### The header against the end of the block (R115) -/

theorem tlvHeader_of_headerPastBlock {blk : List Byte} {i : Nat} (hlen : blk.length = 16)
    (h : HeaderPastBlock blk i) : tlvHeader blk i = .malformed := by
  have hend {k : Nat} (hk : 16 ≤ k) : blk[k]? = none := List.getElem?_eq_none (hlen.trans_le hk)
  obtain rfl | ⟨rfl, h1⟩ | ⟨rfl, h1⟩ := h
  · exact tlvHeader_noLength (hend (by decide))
  · exact tlvHeader_longPastEnd h1 (hend (by decide))
  · exact tlvHeader_longPastEnd h1 (hend (by decide))

/-- Outside the cases of R115 every byte the header needs is in the block. -/
theorem exists_tlvHeader_ok {blk : List Byte} {i : Nat} (hlen : blk.length = 16) (hi : i < 16)
    (h : ¬ HeaderPastBlock blk i) : ∃ v k, tlvHeader blk i = .ok v k := by
  simp only [HeaderPastBlock, not_or] at h
  obtain ⟨h15, h14, h13⟩ := h
  have hin {k : Nat} (hk : k < 16) : blk[k]? = some (blk[k]'(hlen ▸ hk)) := List.getElem?_eq_getElem _
  have h1 := hin (k := i + 1) (by omega)
  by_cases hl : blk[i + 1]? = some 0xFF#8
  · have hne14 : i ≠ 14 := by rintro rfl; exact h14 ⟨rfl, hl⟩
    have hne13 : i ≠ 13 := by rintro rfl; exact h13 ⟨rfl, hl⟩
    exact ⟨_, _, tlvHeader_long hl (hin (by omega)) (hin (by omega))⟩
  · exact ⟨_, _, tlvHeader_short h1 fun hff => hl (h1.trans (congrArg some hff))⟩

/-- The start index a header reports stands behind it, and the header ends in the block (R115). -/
theorem tlvHeader_ok_index {blk : List Byte} {i : Nat} {v : Word} {k : Byte} (hlen : blk.length = 16)
    (h : tlvHeader blk i = .ok v k) : k.toNat = i + 2 ∧ i ≤ 14 ∨ k.toNat = i + 4 ∧ i ≤ 12 := by
  obtain ⟨l, h1, -, -, rfl⟩ | ⟨hi, lo, -, -, h3, -, rfl⟩ := tlvHeader_ok_cases h
  · have hfit := (List.getElem?_eq_some_iff.mp h1).1
    rw [BitVec.toNat_ofNat]
    omega
  · have hfit := (List.getElem?_eq_some_iff.mp h3).1
    rw [BitVec.toNat_ofNat]
    omega

/-- A length is read from one byte or from two (R112, R113). -/
theorem tlvHeader_ok_length_le {blk : List Byte} {i : Nat} {v : Word} {k : Byte} (h : tlvHeader blk i = .ok v k) :
    v.toNat ≤ 65535 := by
  obtain ⟨l, -, -, rfl, -⟩ | ⟨hi, lo, -, -, -, rfl, -⟩ := tlvHeader_ok_cases h
  · have := l.isLt
    rw [BitVec.toNat_setWidth]
    omega
  · have := hi.isLt
    have := lo.isLt
    rw [bigEndian16_toNat]
    omega

/-! ### The three results of the parser (R110, R114) -/

section
variable {blk : List Byte} (hlen : blk.length = 16)
include hlen

theorem tlvDecode_of_malformed_header {i : Nat} {b : Byte} (h : FirstNonPad blk i b)
    (hbad : b ≠ 0x03#8 ∨ HeaderPastBlock blk i) : tlvDecode blk = .malformed := by
  by_cases hb : b = 0x03#8
  · subst hb
    rw [tlvDecode_of_tag h, tlvHeader_of_headerPastBlock hlen (hbad.resolve_left fun hne => hne rfl)]
  · exact tlvDecode_of_not_tag h hb

theorem exists_tlvDecode_ok {i : Nat} (h : FirstNonPad blk i 0x03#8) (hfit : ¬ HeaderPastBlock blk i) :
    ∃ v k, tlvDecode blk = .ok v k := by
  rw [tlvDecode_of_tag h]
  exact exists_tlvHeader_ok hlen (hlen ▸ firstNonPad_lt_length h) hfit

/-- Everything the parser can answer, and the blocks it answers it for. -/
theorem tlvDecode_cases :
    (AllPadding blk ∧ tlvDecode blk = .notFound) ∨
    ((∃ i b, FirstNonPad blk i b ∧ (b ≠ 0x03#8 ∨ HeaderPastBlock blk i)) ∧ tlvDecode blk = .malformed) ∨
    ((∃ i, FirstNonPad blk i 0x03#8 ∧ ¬ HeaderPastBlock blk i) ∧ ∃ v k, tlvDecode blk = .ok v k) := by
  obtain ⟨i, b, hfirst⟩ | hpad := exists_firstNonPad_or_eq_replicate blk
  · by_cases hbad : b ≠ 0x03#8 ∨ HeaderPastBlock blk i
    · exact .inr (.inl ⟨⟨i, b, hfirst, hbad⟩, tlvDecode_of_malformed_header hlen hfirst hbad⟩)
    · obtain ⟨hb, hfit⟩ := not_or.mp hbad
      obtain rfl := not_not.mp hb
      exact .inr (.inr ⟨⟨i, hfirst, hfit⟩, exists_tlvDecode_ok hlen hfirst hfit⟩)
  · have hall : AllPadding blk := (allPadding_iff hlen).mpr (hlen ▸ hpad)
    exact .inl ⟨hall, tlvDecode_of_allPadding hlen hall⟩

theorem tlvDecode_eq_notFound_iff : tlvDecode blk = .notFound ↔ AllPadding blk :=
  ⟨fun h => by simpa [h] using tlvDecode_cases hlen, tlvDecode_of_allPadding hlen⟩

theorem tlvDecode_eq_malformed_iff :
    tlvDecode blk = .malformed ↔ ∃ i b, FirstNonPad blk i b ∧ (b ≠ 0x03#8 ∨ HeaderPastBlock blk i) :=
  ⟨fun h => by simpa [h] using tlvDecode_cases hlen,
    fun ⟨_, _, hfirst, hbad⟩ => tlvDecode_of_malformed_header hlen hfirst hbad⟩

theorem exists_tlvDecode_ok_iff :
    (∃ v k, tlvDecode blk = .ok v k) ↔ ∃ i, FirstNonPad blk i 0x03#8 ∧ ¬ HeaderPastBlock blk i :=
  ⟨fun ⟨v, k, h⟩ => by simpa [h] using tlvDecode_cases hlen,
    fun ⟨_, hfirst, hfit⟩ => exists_tlvDecode_ok hlen hfirst hfit⟩

end

/-- Settles O22: each way the scan and the header end, with the response it stands for. -/
theorem tlvdecFollowsPseudocode : Obligations.TlvdecFollowsPseudocode := by
  unfold Obligations.TlvdecFollowsPseudocode
  refine ⟨fun w hop => ?_, fun blk s hlen => ⟨fun hpad => ?_, fun i b hfirst hb => ?_, fun i htag => ?_⟩⟩
  · exact ⟨blockField w, decode_tlvdec ((op_eq_iff (by decide)).mp hop), blockField_length w,
      fun k hk => blockField_get w hk⟩
  · exact exec_tlvdec_eq_notFound_iff.mpr (tlvDecode_of_allPadding hlen hpad)
  · exact exec_tlvdec_eq_malformed_iff.mpr (tlvDecode_of_not_tag hfirst hb)
  · rw [exec_tlvdec_eq_malformed_iff, tlvDecode_of_tag htag]
    simp only [exec_tlvdec_eq_okRsp_iff, tlvDecode_of_tag htag]
    refine ⟨tlvHeader_noLength, fun l => tlvHeader_short, tlvHeader_longPastEnd, fun hi lo h1 h2 h3 => ?_⟩
    rw [tlvHeader_long h1 h2 h3, ← bigEndian16_toNat, BitVec.ofNat_toNat, BitVec.setWidth_eq]

/-- Settles O23: the parser's three results and their blocks, carried over to the responses. -/
theorem tlvFailsInTwoWays : Obligations.TlvFailsInTwoWays := by
  unfold Obligations.TlvFailsInTwoWays
  intro blk s hlen
  refine ⟨exec_tlvdec_eq_notFound_iff.trans (tlvDecode_eq_notFound_iff hlen),
    exec_tlvdec_eq_malformed_iff.trans (tlvDecode_eq_malformed_iff hlen), ?_⟩
  simp only [exec_tlvdec_eq_okRsp_iff]
  exact exists_tlvDecode_ok_iff hlen

/-- Settles O24: the header at the tag fails in the cases of R115, and otherwise succeeds with the index of its form. -/
theorem tlvHeaderPastBlockIsMalformed : Obligations.TlvHeaderPastBlockIsMalformed := by
  unfold Obligations.TlvHeaderPastBlockIsMalformed
  intro blk i s hlen htag
  simp only [exec_tlvdec_eq_malformed_iff, exec_tlvdec_eq_okRsp_iff, tlvDecode_of_tag htag]
  have hok : ¬ HeaderPastBlock blk i → ∃ v k, tlvHeader blk i = .ok v k :=
    exists_tlvHeader_ok hlen (hlen ▸ firstNonPad_lt_length htag)
  refine ⟨⟨fun hbad => ?_, tlvHeader_of_headerPastBlock hlen⟩, fun hfit => ?_⟩
  · by_contra hfit
    obtain ⟨v, k, h⟩ := hok hfit
    cases h.symm.trans hbad
  · obtain ⟨v, k, h⟩ := hok hfit
    exact ⟨v, k, h, tlvHeader_ok_index hlen h⟩

/-- Settles O25: a success is a header's, whose length has at most two bytes and which ends in the block. -/
theorem tlvSuccessRanges : Obligations.TlvSuccessRanges := by
  unfold Obligations.TlvSuccessRanges
  intro blk s v k hlen hexec
  obtain ⟨i, -, hhdr⟩ := tlvDecode_eq_ok_iff.mp (exec_tlvdec_eq_okRsp_iff.mp hexec)
  have hindex := tlvHeader_ok_index hlen hhdr
  exact ⟨tlvHeader_ok_length_le hhdr, by omega, by omega⟩

/-! ### The round trip (R117) -/

/-- A tag written behind padding is what the scan finds, and the header is read from the bytes written with it. -/
theorem tlvDecode_padding_tag (p : Nat) (rest : List Byte) :
    tlvDecode (List.replicate p 0#8 ++ 0x03#8 :: rest) = tlvHeader (List.replicate p 0#8 ++ 0x03#8 :: rest) p :=
  tlvDecode_of_tag (firstNonPad_iff.mpr ⟨by decide, rest, rfl⟩)

/-- The byte `k + 1` places behind such a tag. -/
theorem getElem?_padding_tag (p k : Nat) (rest : List Byte) :
    (List.replicate p 0#8 ++ 0x03#8 :: rest)[p + (k + 1)]? = rest[k]? := by
  simp [List.getElem?_append_right]

/-- The two bytes of a 16-bit length, put together again (R113). -/
theorem bigEndian16_div_mod {length : Nat} (h : length ≤ 65535) :
    bigEndian16 (BitVec.ofNat 8 (length / 256)) (BitVec.ofNat 8 (length % 256)) = BitVec.ofNat 32 length := by
  apply BitVec.eq_of_toNat_eq
  rw [bigEndian16_toNat]
  simp only [BitVec.toNat_ofNat]
  omega

theorem tlvDecode_short_header {length p : Nat} (h : length ≤ 254) (rest : List Byte) :
    tlvDecode (List.replicate p 0#8 ++ 0x03#8 :: BitVec.ofNat 8 length :: rest) =
      .ok (BitVec.ofNat 32 length) (BitVec.ofNat 8 (p + 2)) := by
  have hshort : BitVec.ofNat 8 length ≠ 0xFF#8 := by
    simp only [Ne, BitVec.toNat_eq, BitVec.toNat_ofNat]
    omega
  have hwide : (BitVec.ofNat 8 length).setWidth 32 = BitVec.ofNat 32 length := by
    apply BitVec.eq_of_toNat_eq
    simp only [BitVec.toNat_setWidth, BitVec.toNat_ofNat]
    omega
  rw [tlvDecode_padding_tag, tlvHeader_short (getElem?_padding_tag p 0 _) hshort, hwide]

theorem tlvDecode_long_header {length p : Nat} (h : length ≤ 65535) (rest : List Byte) :
    tlvDecode (List.replicate p 0#8 ++
        0x03#8 :: 0xFF#8 :: BitVec.ofNat 8 (length / 256) :: BitVec.ofNat 8 (length % 256) :: rest) =
      .ok (BitVec.ofNat 32 length) (BitVec.ofNat 8 (p + 4)) := by
  rw [tlvDecode_padding_tag, tlvHeader_long (getElem?_padding_tag p 0 _) (getElem?_padding_tag p 1 _)
    (getElem?_padding_tag p 2 _), bigEndian16_div_mod h]

/-- Settles O26: the header written behind the padding is the one the parser reads, in either form. -/
theorem tlvRoundTrip : Obligations.TlvRoundTrip := by
  unfold Obligations.TlvRoundTrip
  simp only [exec_tlvdec_eq_okRsp_iff, List.append_assoc, List.cons_append, List.nil_append]
  exact ⟨fun length p rest _ hlength _ _ => tlvDecode_short_header hlength rest,
    fun length p rest _ hlength _ _ => tlvDecode_long_header hlength rest⟩

end Sys2Proof.Machine

/-! ## Proofs: the buffer sizes (42_bufsize.md R120 to R124) -/

namespace Sys2Proof.Machine
open Sys2Proof.Claims

/-! ### Rounding (R120) -/

theorem roundup_of_mod_eq_zero {x u : Nat} (h : x % u = 0) : roundup x u = x := if_pos h

theorem roundup_of_mod_ne_zero {x u : Nat} (h : x % u ≠ 0) : roundup x u = (x / u + 1) * u := if_neg h

theorem roundup_zero_left (u : Nat) : roundup 0 u = 0 := roundup_of_mod_eq_zero (Nat.zero_mod u)

/-- The claims write R120 out once more; it is the model's rounding. -/
theorem roundedUp_eq_roundup (x u : Nat) : roundedUp x u = roundup x u := rfl

section
variable {x u : Nat} (hu : 0 < u)
include hu

theorem dvd_roundup : u ∣ roundup x u := by
  rw [roundup_eq_ceil x u hu]
  exact Nat.dvd_mul_left ..

/-- Rounding up is rounding `x + (u - 1)` down. -/
theorem roundup_add_mod : roundup x u + (x + (u - 1)) % u = x + (u - 1) := by
  rw [roundup_eq_ceil x u hu, Nat.div_add_mod']

theorem le_roundup : x ≤ roundup x u := by
  have hsum := roundup_add_mod (x := x) hu
  have hmod := Nat.mod_lt (x + (u - 1)) hu
  omega

theorem roundup_le_add : roundup x u ≤ x + (u - 1) := Nat.le.intro (roundup_add_mod hu)

/-- No multiple of the unit from `x` on is smaller: less than a unit lies between. -/
theorem roundup_le_of_dvd {m : Nat} (hm : u ∣ m) (hxm : x ≤ m) : roundup x u ≤ m := by
  have hspare := roundup_le_add (x := x) hu
  exact Nat.le_of_lt_add_of_dvd (by omega) (dvd_roundup hu) hm

/-- The only multiple of the unit from `x` on with less than a unit to spare. -/
theorem roundup_eq_of_dvd {m : Nat} (hm : u ∣ m) (hxm : x ≤ m) (hmx : m < x + u) : roundup x u = m := by
  have hx := le_roundup (x := x) hu
  exact (roundup_le_of_dvd hu hm hxm).antisymm (Nat.le_of_lt_add_of_dvd (by omega) hm (dvd_roundup hu))

theorem roundup_mono {y : Nat} (hxy : x ≤ y) : roundup x u ≤ roundup y u :=
  roundup_le_of_dvd hu (dvd_roundup hu) (hxy.trans (le_roundup hu))

/-- Rounding commutes with adding a multiple of the unit. -/
theorem roundup_add_of_dvd {c : Nat} (hc : u ∣ c) : roundup (x + c) u = roundup x u + c := by
  have hx := le_roundup (x := x) hu
  have hspare := roundup_le_add (x := x) hu
  exact roundup_eq_of_dvd hu (Nat.dvd_add (dvd_roundup hu) hc) (by omega) (by omega)

end

/-- Clearing the low `k` bits rounds down to a multiple of `2 ^ k`, in a word of any width. -/
theorem ofNat_div_mul_two_pow (w n k : Nat) :
    BitVec.ofNat w (n / 2 ^ k * 2 ^ k) = BitVec.ofNat w n &&& ~~~ BitVec.ofNat w (2 ^ k - 1) := by
  refine BitVec.eq_of_getLsbD_eq fun i hi => ?_
  simp only [BitVec.getLsbD_and, BitVec.getLsbD_not, BitVec.getLsbD_ofNat, Nat.testBit_mul_two_pow,
    Nat.testBit_div_two_pow, Nat.testBit_two_pow_sub_one, hi]
  obtain hik | hki := Nat.lt_or_ge i k
  · simp [hik]
  · simp [hki, Nat.sub_add_cancel hki]

/-- The masking form of R120, which holds at the wrap too. -/
theorem ofNat_roundup_two_pow (x : Word) (k : Nat) :
    BitVec.ofNat 32 (roundup x.toNat (2 ^ k)) =
      (x + BitVec.ofNat 32 (2 ^ k - 1)) &&& ~~~ BitVec.ofNat 32 (2 ^ k - 1) := by
  rw [roundup_eq_ceil _ _ (Nat.two_pow_pos k), ofNat_div_mul_two_pow, BitVec.ofNat_add, BitVec.ofNat_toNat,
    BitVec.setWidth_eq]

/-- Settles O28: both units are powers of two, and the claim holds for every one of them. -/
theorem roundupIsLeastMultiple : Obligations.RoundupIsLeastMultiple := by
  unfold Obligations.RoundupIsLeastMultiple
  intro u hunit
  obtain ⟨k, rfl⟩ : ∃ k, u = 2 ^ k := hunit.elim (fun h => ⟨2, h⟩) (fun h => ⟨4, h⟩)
  have hu : 0 < 2 ^ k := Nat.two_pow_pos k
  exact ⟨fun x => ⟨roundup_of_mod_eq_zero, roundup_of_mod_ne_zero, dvd_roundup hu, le_roundup hu,
    fun m => roundup_le_of_dvd hu⟩, roundup_zero_left _, fun x => ofNat_roundup_two_pow x k⟩

/-! ### What the two operations answer (R121, R122) -/

theorem exec_ulsize (messageLength : Word) (s : State) :
    exec (.ulsize messageLength) s = .next (s.setRsp (okRsp (ulSize messageLength) 0#8)) := rfl

theorem exec_mcsize (messageLength : Word) (s : State) :
    exec (.mcsize messageLength) s = .next (s.setRsp (okRsp (mcSize messageLength) 0#8)) := rfl

theorem mcOverhead_toNat (messageLength : Word) :
    (mcOverhead messageLength).toNat = classicOverhead messageLength.toNat :=
  apply_ite BitVec.toNat ..

theorem roundSize_add (messageLength overhead : Word) (u : Nat) :
    roundSize (messageLength + overhead) u =
      BitVec.ofNat 32 (roundup ((messageLength.toNat + overhead.toNat) % 2 ^ 32) u) := by
  rw [roundSize, BitVec.toNat_add]

theorem ulSize_eq_ofNat_mod (messageLength : Word) :
    ulSize messageLength = BitVec.ofNat 32 (roundup ((messageLength.toNat + 3) % 2 ^ 32) 4) :=
  roundSize_add messageLength ulOverhead ulReadUnit

theorem mcSize_eq_ofNat_mod (messageLength : Word) :
    mcSize messageLength = BitVec.ofNat 32
      (roundup ((messageLength.toNat + classicOverhead messageLength.toNat) % 2 ^ 32) 16) := by
  rw [← mcOverhead_toNat]
  exact roundSize_add messageLength (mcOverhead messageLength) mcRoundUnit

/-- Settles O29: the row of opcode 4, and the response with the size of R121. -/
theorem ulsizeResult : Obligations.UlsizeResult := by
  unfold Obligations.UlsizeResult
  refine ⟨fun w hop => decode_ulsize ((op_eq_iff (by decide)).mp hop), fun messageLength s => ?_⟩
  rw [exec_ulsize, ulSize_eq_ofNat_mod, roundedUp_eq_roundup]

/-- Settles O30: the row of opcode 5, and the response with the size of R122. -/
theorem mcsizeResult : Obligations.McsizeResult := by
  unfold Obligations.McsizeResult
  refine ⟨fun w hop => decode_mcsize ((op_eq_iff (by decide)).mp hop), fun messageLength s => ?_⟩
  rw [exec_mcsize, mcSize_eq_ofNat_mod, roundedUp_eq_roundup]

/-! ### The exact range and the wrap (R123) -/

/-- Where the unit divides 2^32, reducing the raw size changes nothing that reducing the rounded size does not. -/
theorem ofNat_roundup_mod {u : Nat} (hu : 0 < u) (hdvd : u ∣ 2 ^ 32) (x : Nat) :
    BitVec.ofNat 32 (roundup (x % 2 ^ 32) u) = BitVec.ofNat 32 (roundup x u) := by
  have hx : roundup x u = roundup (x % 2 ^ 32) u + 2 ^ 32 * (x / 2 ^ 32) := by
    rw [← roundup_add_of_dvd hu (hdvd.mul_right _), Nat.mod_add_div]
  apply BitVec.eq_of_toNat_eq
  rw [hx, BitVec.toNat_ofNat, BitVec.toNat_ofNat, Nat.add_mul_mod_self_left]

theorem ulSize_eq_ofNat (messageLength : Word) :
    ulSize messageLength = BitVec.ofNat 32 (roundup (messageLength.toNat + 3) 4) := by
  rw [ulSize_eq_ofNat_mod, ofNat_roundup_mod (by decide) (by decide)]

theorem mcSize_eq_ofNat (messageLength : Word) :
    mcSize messageLength =
      BitVec.ofNat 32 (roundup (messageLength.toNat + classicOverhead messageLength.toNat) 16) := by
  rw [mcSize_eq_ofNat_mod, ofNat_roundup_mod (by decide) (by decide)]

theorem classicOverhead_le (n : Nat) : classicOverhead n ≤ 4 := by
  unfold classicOverhead
  split <;> decide

theorem classicOverhead_pos (n : Nat) : 0 < classicOverhead n := by
  unfold classicOverhead
  split <;> decide

theorem classicOverhead_of_le {n : Nat} (h : 255 ≤ n) : classicOverhead n = 4 := if_neg (Nat.not_lt.mpr h)

/-- The step of the overhead at 255 is upwards (R124). -/
theorem add_classicOverhead_mono {a b : Nat} (h : a ≤ b) : a + classicOverhead a ≤ b + classicOverhead b := by
  unfold classicOverhead
  split <;> split <;> omega

section
variable {messageLength : Word}

theorem ulSize_toNat (h : messageLength.toNat ≤ 0xFFFFFFF9) :
    (ulSize messageLength).toNat = roundup (messageLength.toNat + 3) 4 := by
  have hle : roundup (messageLength.toNat + 3) 4 ≤ 0xFFFFFFFC := roundup_le_of_dvd (by decide) (by decide) (by omega)
  rw [ulSize_eq_ofNat, BitVec.toNat_ofNat, Nat.mod_eq_of_lt (by omega)]

theorem mcSize_toNat (h : messageLength.toNat ≤ 0xFFFFFFEC) :
    (mcSize messageLength).toNat = roundup (messageLength.toNat + classicOverhead messageLength.toNat) 16 := by
  have hover := classicOverhead_le messageLength.toNat
  have hle : roundup (messageLength.toNat + classicOverhead messageLength.toNat) 16 ≤ 0xFFFFFFF0 :=
    roundup_le_of_dvd (by decide) (by decide) (by omega)
  rw [mcSize_eq_ofNat, BitVec.toNat_ofNat, Nat.mod_eq_of_lt (by omega)]

end

/-- The raw size rounds to `m`, which may lie past 2^32. -/
theorem ulSize_eq_of_dvd (messageLength : Word) {m : Nat} (hm : 4 ∣ m) (hle : messageLength.toNat + 3 ≤ m)
    (hlt : m < messageLength.toNat + 7) : ulSize messageLength = BitVec.ofNat 32 m := by
  rw [ulSize_eq_ofNat, roundup_eq_of_dvd (by decide) hm hle hlt]

/-- As `ulSize_eq_of_dvd`, for lengths that take the long form's overhead. -/
theorem mcSize_eq_of_dvd (messageLength : Word) {m : Nat} (hlong : 255 ≤ messageLength.toNat) (hm : 16 ∣ m)
    (hle : messageLength.toNat + 4 ≤ m) (hlt : m < messageLength.toNat + 20) :
    mcSize messageLength = BitVec.ofNat 32 m := by
  rw [mcSize_eq_ofNat, classicOverhead_of_le hlong, roundup_eq_of_dvd (by decide) hm hle hlt]

/-- Settles O31: past the exact range the raw size rounds to 2^32 and then to one unit above it. -/
theorem sizesWrapAsListed : Obligations.SizesWrapAsListed := by
  unfold Obligations.SizesWrapAsListed
  intro messageLength s
  have hword : messageLength.toNat < 2 ^ 32 := messageLength.isLt
  refine ⟨ulSize messageLength, mcSize messageLength, exec_ulsize .., exec_mcsize .., ulSize_toNat,
    fun ⟨hlo, hhi⟩ => ?_, fun hlo => ?_, mcSize_toNat, fun ⟨hlo, hhi⟩ => ?_, fun hlo => ?_⟩
  · exact ulSize_eq_of_dvd messageLength (m := 2 ^ 32) (by decide) (by omega) (by omega)
  · exact ulSize_eq_of_dvd messageLength (m := 2 ^ 32 + 4) (by decide) (by omega) (by omega)
  · exact mcSize_eq_of_dvd messageLength (m := 2 ^ 32) (by omega) (by decide) (by omega) (by omega)
  · exact mcSize_eq_of_dvd messageLength (m := 2 ^ 32 + 16) (by omega) (by decide) (by omega) (by omega)

/-! ### Sizes cover the message (R124) -/

/-- What R124 says of either size, once it is exact: `x` and `y` are raw sizes. -/
theorem roundup_covers {u x y : Nat} (hu : 0 < u) (hxy : x ≤ y) (hy : 0 < y) :
    roundup x u ≤ roundup y u ∧ u ∣ roundup y u ∧ u ≤ roundup y u ∧ y ≤ roundup y u ∧ roundup y u ≤ y + (u - 1) :=
  ⟨roundup_mono hu hxy, dvd_roundup hu, Nat.le_of_dvd (hy.trans_le (le_roundup hu)) (dvd_roundup hu), le_roundup hu,
    roundup_le_add hu⟩

/-- Settles O32: in the exact range the sizes are rounded raw sizes, and the raw sizes grow with the message. -/
theorem sizesCoverMessage : Obligations.SizesCoverMessage := by
  unfold Obligations.SizesCoverMessage
  intro a b s hab
  refine ⟨fun hb => ⟨ulSize a, ulSize b, exec_ulsize a s, exec_ulsize b s, ?_⟩,
    fun hb => ⟨mcSize a, mcSize b, exec_mcsize a s, exec_mcsize b s, ?_⟩⟩
  · rw [ulSize_toNat (hab.trans hb), ulSize_toNat hb]
    exact roundup_covers (by decide) (Nat.add_le_add_right hab 3) (Nat.succ_pos _)
  · rw [mcSize_toNat (hab.trans hb), mcSize_toNat hb]
    exact roundup_covers (by decide) (add_classicOverhead_mono hab) (Nat.add_pos_right _ (classicOverhead_pos _))

/-- Settles O33: a decoded length has at most 16 bits (R116), so both sizes are exact, and each bound is the multiple
that the longest length rounds to. -/
theorem decodedLengthsSizeExactly : Obligations.DecodedLengthsSizeExactly := by
  unfold Obligations.DecodedLengthsSizeExactly
  intro blk s v k hlen hexec
  obtain ⟨hv, -, -⟩ := tlvSuccessRanges blk s v k hlen hexec
  have hover := classicOverhead_le v.toNat
  refine ⟨ulSize v, mcSize v, ?_⟩
  rw [ulSize_toNat (by omega), mcSize_toNat (by omega)]
  exact ⟨exec_ulsize v s, le_roundup (by decide), roundup_le_of_dvd (by decide) (by decide) (by omega),
    exec_mcsize v s, le_roundup (by decide), roundup_le_of_dvd (by decide) (by decide) (by omega)⟩

end Sys2Proof.Machine

/-! ## Proofs: block positions (43_blockpos.md R130 to R133, 20_memory.md R47) -/

namespace Sys2Proof.Machine
open Sys2Proof.Claims

/-! ### What the two operations answer (R130, R131) -/

theorem isFirstBlock_iff {n : Nat} : isFirstBlock n = true ↔ FirstFormula n := by
  unfold isFirstBlock FirstFormula geomBoundary smallSector largeSector
  split <;> rw [beq_iff_eq] <;> omega

theorem isTrailerBlock_iff {n : Nat} : isTrailerBlock n = true ↔ TrailerFormula n := by
  unfold isTrailerBlock TrailerFormula geomBoundary smallSector largeSector
  split <;> rw [beq_iff_eq] <;> omega

theorem exec_isfirst (n : Byte) (s : State) :
    exec (.isfirst n) s = .next (s.setRsp (okRsp (boolCode (isFirstBlock n.toNat)) 0#8)) := rfl

theorem exec_istrail (n : Byte) (s : State) :
    exec (.istrail n) s = .next (s.setRsp (okRsp (boolCode (isTrailerBlock n.toNat)) 0#8)) := rfl

theorem State.setRsp_inj {s : State} {r r' : Response} : s.setRsp r = s.setRsp r' ↔ r = r' :=
  ⟨congrArg State.rsp, congrArg s.setRsp⟩

/-- `VAL` tells the two booleans apart (R69). -/
theorem boolCode_injective : Function.Injective boolCode := by decide

/-- The answers' states differ where the booleans do. -/
theorem next_okRsp_boolCode_inj {s : State} {b b' : Bool} :
    (Host.Outcome.next (s.setRsp (okRsp (boolCode b) 0#8)) : Host.Outcome State Fault Refusal) =
      .next (s.setRsp (okRsp (boolCode b') 0#8)) ↔ b = b' := by
  rw [next_inj, State.setRsp_inj]
  exact ⟨fun h => boolCode_injective (congrArg Response.val h), fun h => h ▸ rfl⟩

section
variable {n : Byte} {s : State}

theorem exec_isfirst_eq_one_iff :
    exec (.isfirst n) s = .next (s.setRsp (okRsp 1#32 0#8)) ↔ FirstFormula n.toNat :=
  (next_okRsp_boolCode_inj (b' := true)).trans isFirstBlock_iff

theorem exec_isfirst_eq_zero_iff :
    exec (.isfirst n) s = .next (s.setRsp (okRsp 0#32 0#8)) ↔ ¬ FirstFormula n.toNat := by
  rw [← isFirstBlock_iff, Bool.not_eq_true]
  exact next_okRsp_boolCode_inj (b' := false)

theorem exec_istrail_eq_one_iff :
    exec (.istrail n) s = .next (s.setRsp (okRsp 1#32 0#8)) ↔ TrailerFormula n.toNat :=
  (next_okRsp_boolCode_inj (b' := true)).trans isTrailerBlock_iff

theorem exec_istrail_eq_zero_iff :
    exec (.istrail n) s = .next (s.setRsp (okRsp 0#32 0#8)) ↔ ¬ TrailerFormula n.toNat := by
  rw [← isTrailerBlock_iff, Bool.not_eq_true]
  exact next_okRsp_boolCode_inj (b' := false)

end

/-! ### The formulas in bits -/

/-- The low `k` bits are the remainder modulo `2 ^ k`, in a word of any width. -/
theorem extractLsb'_zero_eq_ofNat_iff {w : Nat} (x : BitVec w) {k c : Nat} (hc : c < 2 ^ k) :
    x.extractLsb' 0 k = BitVec.ofNat k c ↔ x.toNat % 2 ^ k = c := by
  rw [BitVec.toNat_eq, BitVec.extractLsb'_toNat, Nat.shiftRight_zero, BitVec.toNat_ofNat, Nat.mod_eq_of_lt hc]

/-- Bit 7 of a block number tells the two regions apart: the geometry changes at 2^7 (R47). -/
theorem getLsbD_seven_iff (n : Byte) : n.getLsbD 7 = true ↔ 128 ≤ n.toNat := by
  have hmsb : n.getLsbD 7 = decide (128 ≤ n.toNat) := BitVec.msb_eq_decide n
  rw [hmsb, decide_eq_true_iff]

theorem firstFormula_iff_bits (n : Byte) :
    FirstFormula n.toNat ↔
      (n.getLsbD 7 = false ∧ n.extractLsb' 0 2 = 0#2) ∨ (n.getLsbD 7 = true ∧ n.extractLsb' 0 4 = 0#4) := by
  rw [← Bool.not_eq_true, getLsbD_seven_iff, extractLsb'_zero_eq_ofNat_iff n (by decide),
    extractLsb'_zero_eq_ofNat_iff n (by decide), Nat.not_le]
  exact Iff.rfl

theorem trailerFormula_iff_bits (n : Byte) :
    TrailerFormula n.toNat ↔
      (n.getLsbD 7 = false ∧ n.extractLsb' 0 2 = 3#2) ∨ (n.getLsbD 7 = true ∧ n.extractLsb' 0 4 = 15#4) := by
  rw [← Bool.not_eq_true, getLsbD_seven_iff, extractLsb'_zero_eq_ofNat_iff n (by decide),
    extractLsb'_zero_eq_ofNat_iff n (by decide), TrailerFormula]
  omega

/-- Settles O34: the row of opcode 6, the answer by R130's formula, and the formula in bits. -/
theorem isfirstFollowsFormula : Obligations.IsfirstFollowsFormula := by
  unfold Obligations.IsfirstFollowsFormula
  exact ⟨fun w hop => decode_isfirst ((op_eq_iff (by decide)).mp hop), fun n s =>
    ⟨exec_isfirst_eq_one_iff.mpr, exec_isfirst_eq_zero_iff.mpr, firstFormula_iff_bits n⟩⟩

/-- Settles O35: the row of opcode 7, the answer by R131's formula, and the formula in bits. -/
theorem istrailFollowsFormula : Obligations.IstrailFollowsFormula := by
  unfold Obligations.IstrailFollowsFormula
  exact ⟨fun w hop => decode_istrail ((op_eq_iff (by decide)).mp hop), fun n s =>
    ⟨exec_istrail_eq_one_iff.mpr, exec_istrail_eq_zero_iff.mpr, trailerFormula_iff_bits n⟩⟩

/-! ### Sectors and positions (R47) -/

/-- The lowest block of a sector: sectors of 4 blocks up to block 128, of 16 from there on (R47). -/
def sectorStart (sector : Nat) : Nat := if sector < 32 then 4 * sector else 128 + 16 * (sector - 32)

/-- The two kinds of sector (R47). -/
theorem sector_cases (k : Nat) :
    (k < 32 ∧ sectorStart k = 4 * k ∧ sectorLength k = 4) ∨
    (32 ≤ k ∧ sectorStart k = 128 + 16 * (k - 32) ∧ sectorLength k = 16) := by
  obtain hk | hk := Nat.lt_or_ge k 32
  · exact .inl ⟨hk, if_pos hk, if_pos hk⟩
  · exact .inr ⟨hk, if_neg (Nat.not_lt.mpr hk), if_neg (Nat.not_lt.mpr hk)⟩

theorem sectorLength_pos (k : Nat) : 0 < sectorLength k := by
  obtain ⟨-, -, hlen⟩ | ⟨-, -, hlen⟩ := sector_cases k <;> omega

theorem sectorOf_of_lt {n : Nat} (hn : n < 128) : sectorOf n = n / 4 := if_pos hn

theorem sectorOf_of_le {n : Nat} (hn : 128 ≤ n) : sectorOf n = 32 + (n - 128) / 16 := if_neg (Nat.not_lt.mpr hn)

/-- Where a block stands on either side of the boundary, and the start and length of its sector (R47). -/
theorem block_cases (n : Nat) :
    (n < 128 ∧ positionOf n = n % 4 ∧ sectorStart (sectorOf n) = 4 * (n / 4) ∧ sectorLength (sectorOf n) = 4) ∨
    (128 ≤ n ∧ positionOf n = n % 16 ∧ sectorStart (sectorOf n) = 128 + 16 * ((n - 128) / 16) ∧
      sectorLength (sectorOf n) = 16) := by
  obtain hn | hn := Nat.lt_or_ge n 128
  · have hk : n / 4 < 32 := by omega
    rw [sectorOf_of_lt hn]
    exact .inl ⟨hn, if_pos hn, if_pos hk, if_pos hk⟩
  · have hk : ¬ 32 + (n - 128) / 16 < 32 := by omega
    rw [sectorOf_of_le hn]
    exact .inr ⟨hn, if_neg (Nat.not_lt.mpr hn), (if_neg hk).trans (by rw [Nat.add_sub_cancel_left]), if_neg hk⟩

theorem sectorStart_add_positionOf (n : Nat) : sectorStart (sectorOf n) + positionOf n = n := by
  obtain ⟨-, hpos, hstart, -⟩ | ⟨hn, hpos, hstart, -⟩ := block_cases n <;> omega

theorem positionOf_lt (n : Nat) : positionOf n < sectorLength (sectorOf n) := by
  obtain ⟨-, hpos, -, hlen⟩ | ⟨-, hpos, -, hlen⟩ := block_cases n <;> omega

/-- Every position below the sector's length is a block of that sector. -/
theorem sectorOf_sectorStart_add {k p : Nat} (hp : p < sectorLength k) : sectorOf (sectorStart k + p) = k := by
  obtain ⟨hk, hstart, hlen⟩ | ⟨hk, hstart, hlen⟩ := sector_cases k
  · rw [sectorOf_of_lt (by omega)]
    omega
  · rw [sectorOf_of_le (by omega)]
    omega

/-- R133: a first block stands at position 0. -/
theorem firstFormula_iff_positionOf {n : Nat} : FirstFormula n ↔ positionOf n = 0 := by
  unfold FirstFormula
  obtain ⟨hn, hpos, -, -⟩ | ⟨hn, hpos, -, -⟩ := block_cases n <;> omega

/-- R133: a trailer stands at the last position, 3 or 15. -/
theorem trailerFormula_iff_positionOf {n : Nat} :
    TrailerFormula n ↔ positionOf n + 1 = sectorLength (sectorOf n) := by
  unfold TrailerFormula
  obtain ⟨hn, hpos, -, hlen⟩ | ⟨hn, hpos, -, hlen⟩ := block_cases n <;> omega

/-- Within a sector the block numbers are ordered as the positions are. -/
theorem le_iff_positionOf_le {m n : Nat} (h : sectorOf m = sectorOf n) : m ≤ n ↔ positionOf m ≤ positionOf n := by
  have hm := sectorStart_add_positionOf m
  have hn := sectorStart_add_positionOf n
  rw [h] at hm
  omega

/-- The positions of a sector's blocks are exactly those below its length. -/
theorem exists_sectorOf_eq_positionOf_eq {k p : Nat} (hp : p < sectorLength k) :
    ∃ m, sectorOf m = k ∧ positionOf m = p := by
  have hsec := sectorOf_sectorStart_add hp
  have hpos := sectorStart_add_positionOf (sectorStart k + p)
  rw [hsec] at hpos
  exact ⟨_, hsec, Nat.add_left_cancel hpos⟩

theorem firstFormula_iff_lowest {n : Nat} : FirstFormula n ↔ ∀ m, sectorOf m = sectorOf n → n ≤ m := by
  rw [firstFormula_iff_positionOf]
  constructor
  · intro hfirst m hsec
    exact (le_iff_positionOf_le hsec.symm).mpr (hfirst ▸ Nat.zero_le _)
  · intro hlow
    obtain ⟨m, hsec, hpos⟩ := exists_sectorOf_eq_positionOf_eq (sectorLength_pos (sectorOf n))
    have hle := (le_iff_positionOf_le hsec.symm).mp (hlow m hsec)
    omega

theorem trailerFormula_iff_highest {n : Nat} : TrailerFormula n ↔ ∀ m, sectorOf m = sectorOf n → m ≤ n := by
  rw [trailerFormula_iff_positionOf]
  have hn := positionOf_lt n
  constructor
  · intro hlast m hsec
    have hm := positionOf_lt m
    rw [hsec] at hm
    exact (le_iff_positionOf_le hsec).mpr (by omega)
  · intro hhigh
    obtain ⟨m, hsec, hpos⟩ := exists_sectorOf_eq_positionOf_eq (Nat.sub_one_lt_of_lt hn)
    have hle := (le_iff_positionOf_le hsec).mp (hhigh m hsec)
    omega

/-- R133: the first block and the trailer of a sector are one sector length less 1 apart. -/
theorem trailer_eq_first_add {n m : Nat} (hfirst : FirstFormula n) (htrail : TrailerFormula m)
    (hsec : sectorOf m = sectorOf n) : m = n + sectorLength (sectorOf n) - 1 := by
  have hn := sectorStart_add_positionOf n
  have hm := sectorStart_add_positionOf m
  rw [firstFormula_iff_positionOf] at hfirst
  rw [trailerFormula_iff_positionOf, hsec] at htrail
  rw [hsec] at hm
  omega

/-- R133: a trailer is the block before a first block, across the boundary at 128 too. -/
theorem trailerFormula_iff_firstFormula_succ {n : Nat} : TrailerFormula n ↔ FirstFormula (n + 1) := by
  unfold TrailerFormula FirstFormula
  omega

/-- R132: no sector has exactly one block. -/
theorem not_firstFormula_and_trailerFormula (n : Nat) : ¬ (FirstFormula n ∧ TrailerFormula n) := by
  unfold FirstFormula TrailerFormula
  omega

/-- Settles O36: the two formulas exclude each other, and the four blocks that are neither are answered 0. -/
theorem firstAndTrailerExclude : Obligations.FirstAndTrailerExclude := by
  unfold Obligations.FirstAndTrailerExclude
  constructor
  · intro n s
    rw [exec_isfirst_eq_one_iff, exec_istrail_eq_one_iff]
    exact not_firstFormula_and_trailerFormula n.toNat
  · intro s n hn
    obtain rfl | rfl | rfl | rfl := hn <;> exact ⟨rfl, rfl⟩

/-- Settles O37: each operation answers by its formula, and the formulas speak of the positions in the sector. -/
theorem positionsMatchGeometry : Obligations.PositionsMatchGeometry := by
  unfold Obligations.PositionsMatchGeometry
  simp only [exec_isfirst_eq_one_iff, exec_istrail_eq_one_iff]
  refine ⟨fun n _ => firstFormula_iff_lowest, fun n _ => trailerFormula_iff_highest,
    fun n m _ => trailer_eq_first_add, fun n _ hn => ?_⟩
  have hsucc : (n + 1#8).toNat = n.toNat + 1 := BitVec.toNat_add_of_lt (by rw [BitVec.toNat_ofNat]; omega)
  rw [hsucc]
  exact trailerFormula_iff_firstFormula_succ

end Sys2Proof.Machine

/-! ## Proofs: the formatter (44_formatter_aux.md R140 to R144) -/

namespace Sys2Proof.Machine
open Sys2Proof.Claims

/-! ### The guards come before the data (R143, R144) -/

section
variable {s : State} {len : Byte}

theorem formatWith_of_len_eq_zero (hfmt : s.cfg.hasFmt = true) (h : len = 0#8) (sep : Byte) (data : List Byte) :
    formatWith sep len data s = raise .emptyInput s := by
  simp [formatWith, hfmt, h]

theorem formatWith_of_lt_len (hfmt : s.cfg.hasFmt = true) (h : 15 < len.toNat) (sep : Byte) (data : List Byte) :
    formatWith sep len data s = raise .tooLong s := by
  have hne : len ≠ 0#8 := by bv_omega
  simp [formatWith, hfmt, hne, fmtMax, h]

theorem formatWith_of_len_le (hfmt : s.cfg.hasFmt = true) (hpos : 1 ≤ len.toNat) (hmax : len.toNat ≤ 15) (sep : Byte)
    (data : List Byte) : formatWith sep len data s = returnString (hexString sep (data.take len.toNat)) s := by
  have hne : len ≠ 0#8 := by bv_omega
  simp [formatWith, hfmt, hne, fmtMax, Nat.not_lt.mpr hmax, dataOperand]

end

/-! ### The text, character by character (R140 to R142) -/

/-- The digits of a nibble are those of R142's list. -/
theorem digitCodes_getElem?_toNat (d : BitVec 4) : digitCodes[d.toNat]? = some (hexDigit d) := by
  revert d
  decide

theorem digitCodes_high_nibble (b : Byte) : digitCodes[b.toNat / 16]? = some (hexDigit (b.extractLsb' 4 4)) := by
  have hd : (b.extractLsb' 4 4).toNat = b.toNat / 16 := by
    rw [BitVec.extractLsb'_toNat, Nat.shiftRight_eq_div_pow]
    omega
  rw [← hd, digitCodes_getElem?_toNat]

theorem digitCodes_low_nibble (b : Byte) : digitCodes[b.toNat % 16]? = some (hexDigit (b.extractLsb' 0 4)) := by
  have hd : (b.extractLsb' 0 4).toNat = b.toNat % 16 := BitVec.extractLsb'_toNat ..
  rw [← hd, digitCodes_getElem?_toNat]

/-- Byte `k` of the data stands in the three characters from `3k` on: its digits, and a separator if a byte follows. -/
theorem hexString_getElem? {sep b : Byte} {ds : List Byte} {k : Nat} (h : ds[k]? = some b) :
    (hexString sep ds)[3 * k]? = some (hexDigit (b.extractLsb' 4 4)) ∧
    (hexString sep ds)[3 * k + 1]? = some (hexDigit (b.extractLsb' 0 4)) ∧
    (k + 1 < ds.length → (hexString sep ds)[3 * k + 2]? = some sep) := by
  induction ds generalizing k with
  | nil => simp at h
  | cons d ds ih =>
    cases k with
    | zero =>
      obtain rfl : d = b := by simpa using h
      refine ⟨rfl, rfl, fun hlen => ?_⟩
      cases ds with
      | nil => simp at hlen
      | cons e es => rfl
    | succ k =>
      cases ds with
      | nil => simp at h
      | cons e es =>
        obtain ⟨hhi, hlo, hsep⟩ := ih (k := k) (by simpa using h)
        exact ⟨hhi, hlo, fun hlen => hsep (by simpa using hlen)⟩

/-- With at most one byte no separator stands in the text (R141). -/
theorem hexString_congr_of_length_le_one (sep sep' : Byte) {ds : List Byte} (h : ds.length ≤ 1) :
    hexString sep ds = hexString sep' ds := by
  match ds, h with
  | [], _ => rfl
  | [_], _ => rfl

/-! ### The response that returns a text (R72) -/

/-- The response that `returnString` drives. -/
def stringRsp (chars : List Byte) : Response :=
  ⟨.ok, BitVec.ofNat 32 chars.length, 0#8, BitVec.ofNat 8 chars.length, BitVec.ofNat 352 (packBytes chars)⟩

theorem returnString_eq_stringRsp (chars : List Byte) (s : State) :
    returnString chars s = .next (s.setRsp (stringRsp chars)) := returnString_eq chars s

theorem strCell_stringRsp {chars : List Byte} (hfit : chars.length ≤ 44) {j : Nat} {c : Byte}
    (h : chars[j]? = some c) : strCell (stringRsp chars) j = c := by
  have hcell : strCell (stringRsp chars) j = chars.getD j 0 := byteAt_ofNat_packBytes chars j (by omega)
  rw [hcell, List.getD_eq_getElem?_getD, h, Option.getD_some]

theorem stringRsp_carriesText (sep : Byte) {len : Nat} {data : List Byte} (hmax : len ≤ 15)
    (hdata : len ≤ data.length) : CarriesText sep len data (stringRsp (hexString sep (data.take len))) := by
  have htake : (data.take len).length = len := List.length_take_of_le hdata
  have hlen : (hexString sep (data.take len)).length = 3 * len - 1 := by rw [hexString_length, htake]
  have hfit : (hexString sep (data.take len)).length ≤ 44 := by omega
  refine ⟨rfl, ?_, ?_, rfl, fun k hk b hb => ?_, fun j hj _ => ?_⟩
  · rw [stringRsp, BitVec.toNat_ofNat, hlen]
    omega
  · rw [stringRsp, BitVec.toNat_ofNat, hlen]
    omega
  · have hb' : (data.take len)[k]? = some b := by rw [List.getElem?_take_of_lt hk, hb]
    obtain ⟨hhi, hlo, hsep⟩ := hexString_getElem? (sep := sep) hb'
    rw [digitCodes_high_nibble, digitCodes_low_nibble, strCell_stringRsp hfit hhi,
      strCell_stringRsp hfit hlo]
    exact ⟨rfl, rfl, fun hnext => strCell_stringRsp hfit (hsep (htake.symm ▸ hnext))⟩
  · exact extractLsb'_ofNat_packBytes_of_length_le hfit (hlen.trans_le hj)

/-! ### What the two operations answer -/

theorem exec_fmtuid (len : Byte) (data : List Byte) (s : State) :
    exec (.fmtuid len data) s = formatWith 0x2D#8 len data s := rfl

theorem exec_fmtbytes (len : Byte) (data : List Byte) (s : State) :
    exec (.fmtbytes len data) s = formatWith 0x20#8 len data s := rfl

theorem dataOf_dataField (w : ReqWord) : DataOf w (dataField w) :=
  ⟨dataField_length w, fun _ hk => dataField_get w hk⟩

/-- R140 and R141 are one rule, whatever the separator. -/
theorem exists_formatWith_carriesText {s : State} (hfmt : s.cfg.hasFmt = true) {len : Byte} {data : List Byte}
    (hdata : data.length = 15) (hpos : 1 ≤ len.toNat) (hmax : len.toNat ≤ 15) (sep : Byte) :
    ∃ r : Response, formatWith sep len data s = .next (s.setRsp r) ∧ CarriesText sep len.toNat data r :=
  ⟨_, (formatWith_of_len_le hfmt hpos hmax sep data).trans (returnString_eq_stringRsp _ s),
    stringRsp_carriesText sep hmax (hmax.trans_eq hdata.symm)⟩

/-- For a single byte the separator plays no part, with the formatter or without it (R141). -/
theorem formatWith_one_congr (sep sep' : Byte) (data : List Byte) (s : State) :
    formatWith sep 1#8 data s = formatWith sep' 1#8 data s := by
  have hone : (dataOperand 1#8 data).length ≤ 1 := List.length_take_le 1 data
  rw [formatWith, formatWith, hexString_congr_of_length_le_one sep sep' hone]

/-- Settles O38: the text is read off character by character, and the two guards come first. -/
theorem fmtuidCarriesHyphenText : Obligations.FmtuidCarriesHyphenText := by
  unfold Obligations.FmtuidCarriesHyphenText
  refine ⟨fun w hop => ⟨dataField w, decode_fmtuid ((op_eq_iff (by decide)).mp hop), dataOf_dataField w⟩,
    fun len data s hdata hfmt => ?_⟩
  rw [exec_fmtuid]
  exact ⟨fun hpos hmax => exists_formatWith_carriesText hfmt hdata hpos hmax _,
    fun h => formatWith_of_len_eq_zero hfmt h _ _, fun h => formatWith_of_lt_len hfmt h _ _⟩

/-- Settles O39: the rule of FMTUID with the other separator, which a single byte's text does not show. -/
theorem fmtbytesCarriesSpaceText : Obligations.FmtbytesCarriesSpaceText := by
  unfold Obligations.FmtbytesCarriesSpaceText
  refine ⟨fun w hop => ⟨dataField w, decode_fmtbytes ((op_eq_iff (by decide)).mp hop), dataOf_dataField w⟩,
    fun len data s hdata hfmt => ?_, fun data s _ => formatWith_one_congr _ _ data s⟩
  rw [exec_fmtbytes]
  exact ⟨fun hpos hmax => exists_formatWith_carriesText hfmt hdata hpos hmax _,
    fun h => formatWith_of_len_eq_zero hfmt h _ _, fun h => formatWith_of_lt_len hfmt h _ _⟩

/-- Settles O40: neither guard looks at the data or the separator, and without the unit nothing is looked at. -/
theorem formatterGuardsReject : Obligations.FormatterGuardsReject := by
  unfold Obligations.FormatterGuardsReject
  intro len data s i hi
  obtain ⟨sep, hexec⟩ : ∃ sep, exec i s = formatWith sep len data s := by
    obtain rfl | rfl := hi
    · exact ⟨_, exec_fmtuid len data s⟩
    · exact ⟨_, exec_fmtbytes len data s⟩
  rw [hexec]
  exact ⟨fun hfmt h => formatWith_of_len_eq_zero hfmt h _ _, fun hfmt h => formatWith_of_lt_len hfmt h _ _,
    fun hfmt => formatWith_of_absent hfmt _ _ _⟩

end Sys2Proof.Machine

/-! ## Proofs: every request is answered, and each failure has its cause (60_exceptions.md R160, R161) -/

namespace Sys2Proof.Machine
open Sys2Proof.Claims

/-- The cause R161 gives for each failure, read off the request on the port and the parameter; a success has none. -/
def FailureCause (s : State) : Status → Prop
  | .ok => False
  | .notFound => op s.req = 3 ∧ AllPadding (blockField s.req)
  | .malformed => op s.req = 3 ∧
      ∃ i b, FirstNonPad (blockField s.req) i b ∧ (b ≠ 0x03#8 ∨ HeaderPastBlock (blockField s.req) i)
  | .illegalOp => Unassigned s.cfg (op s.req)
  | .emptyInput => s.cfg.hasFmt = true ∧ (op s.req = 8 ∨ op s.req = 9) ∧ (byteField s.req).toNat = 0
  | .tooLong => s.cfg.hasFmt = true ∧ (op s.req = 8 ∨ op s.req = 9) ∧ 15 < (byteField s.req).toNat

/-- The sixteen bytes of format B are the block operand the decoder reads (R63). -/
theorem eq_blockField {blk : List Byte} {w : ReqWord} (hlen : blk.length = 16)
    (h : ∀ k < 16, blk[k]? = some (w.extractLsb' (8 * k + 8) 8)) : blk = blockField w := by
  refine List.ext_getElem?' fun k hk => ?_
  have hk16 : k < 16 := by simpa [hlen] using hk
  rw [h k hk16, blockField_get w hk16]

section
variable {s : State}

theorem step_of_op_eq_three (h : op s.req = 3) : step s = endTlv (tlvDecode (blockField s.req)) s :=
  step_of_decode_ok (decode_tlvdec ((op_eq_iff (by decide)).mp h))

/-- The formatter's two rows differ in the separator alone (R140, R141). -/
theorem exists_step_eq_formatWith (h : op s.req = 8 ∨ op s.req = 9) :
    ∃ sep, step s = formatWith sep (byteField s.req) (dataField s.req) s := by
  obtain h8 | h9 := h
  · exact ⟨_, step_of_decode_ok (decode_fmtuid ((op_eq_iff (by decide)).mp h8))⟩
  · exact ⟨_, step_of_decode_ok (decode_fmtbytes ((op_eq_iff (by decide)).mp h9))⟩

/-- The rows that cannot fail: CLASSIFY, GUESS, the two sizes and the two block positions (R161). -/
theorem exists_step_eq_returnVal (h : 1 ≤ op s.req ∧ op s.req ≤ 7 ∧ op s.req ≠ 3) :
    ∃ v, step s = returnVal v s := by
  have hop : op s.req = 1 ∨ op s.req = 2 ∨ op s.req = 4 ∨ op s.req = 5 ∨ op s.req = 6 ∨ op s.req = 7 := by omega
  obtain h | h | h | h | h | h := hop <;> replace h := (op_eq_iff (by decide)).mp h
  · exact ⟨_, step_of_decode_ok (decode_classify h)⟩
  · exact ⟨_, step_of_decode_ok (decode_guess h)⟩
  · exact ⟨_, step_of_decode_ok (decode_ulsize h)⟩
  · exact ⟨_, step_of_decode_ok (decode_mcsize h)⟩
  · exact ⟨_, step_of_decode_ok (decode_isfirst h)⟩
  · exact ⟨_, step_of_decode_ok (decode_istrail h)⟩

/-- Each cause brings about its failure (R161). -/
theorem step_of_failureCause {c : Status} (h : FailureCause s c) : step s = raise c s := by
  cases c with
  | ok => exact h.elim
  | notFound =>
    obtain ⟨hop, hpad⟩ := h
    rw [step_of_op_eq_three hop, tlvDecode_of_allPadding (blockField_length _) hpad, endTlv]
  | malformed =>
    obtain ⟨hop, i, b, hfirst, hbad⟩ := h
    rw [step_of_op_eq_three hop, tlvDecode_of_malformed_header (blockField_length _) hfirst hbad, endTlv]
  | illegalOp => exact step_of_unassigned h
  | emptyInput =>
    obtain ⟨hfmt, hop, hlen⟩ := h
    obtain ⟨sep, hstep⟩ := exists_step_eq_formatWith hop
    exact hstep.trans (formatWith_of_len_eq_zero hfmt (BitVec.eq_of_toNat_eq hlen) _ _)
  | tooLong =>
    obtain ⟨hfmt, hop, hlen⟩ := h
    obtain ⟨sep, hstep⟩ := exists_step_eq_formatWith hop
    exact hstep.trans (formatWith_of_lt_len hfmt hlen _ _)

end

/-- Every step is a failure whose cause holds, or a success (R160, R161). -/
theorem step_fails_with_cause_or_succeeds (s : State) :
    (∃ c, FailureCause s c ∧ step s = raise c s) ∨
    ∃ r : Response, r.status = .ok ∧ step s = .next (s.setRsp r) := by
  by_cases hcause : ∃ c, FailureCause s c
  · obtain ⟨c, hc⟩ := hcause
    exact .inl ⟨c, hc, step_of_failureCause hc⟩
  have hno (c : Status) : ¬ FailureCause s c := not_exists.mp hcause c
  have hassigned : ¬ Unassigned s.cfg (op s.req) := hno .illegalOp
  rw [Unassigned, not_or, not_or, not_and_or, Bool.not_eq_false] at hassigned
  obtain ⟨hne0, hlt, hfmt⟩ := hassigned
  refine .inr ?_
  by_cases h3 : op s.req = 3
  · obtain ⟨hpad, -⟩ | ⟨hbad, -⟩ | ⟨-, v, k, hok⟩ := tlvDecode_cases (blockField_length s.req)
    · exact (hno .notFound ⟨h3, hpad⟩).elim
    · exact (hno .malformed ⟨h3, hbad⟩).elim
    · exact ⟨okRsp v k, rfl, (step_of_op_eq_three h3).trans (exec_tlvdec_eq_okRsp_iff.mpr hok)⟩
  by_cases h89 : op s.req = 8 ∨ op s.req = 9
  · have hfmt := hfmt.resolve_right (not_not.mpr h89)
    have hpos : (byteField s.req).toNat ≠ 0 := fun h => hno .emptyInput ⟨hfmt, h89, h⟩
    have hmax : ¬ 15 < (byteField s.req).toNat := fun h => hno .tooLong ⟨hfmt, h89, h⟩
    obtain ⟨sep, hstep⟩ := exists_step_eq_formatWith h89
    exact ⟨stringRsp _, rfl, hstep.trans
      (formatWith_of_len_le hfmt (Nat.pos_of_ne_zero hpos) (Nat.not_lt.mp hmax) _ _)⟩
  · obtain ⟨v, hstep⟩ := exists_step_eq_returnVal (s := s) (by omega)
    exact ⟨_, rfl, hstep.trans (returnVal_eq v s)⟩

/-- A failure status is reported exactly when its cause holds: no two causes hold at once, since each determines the
status, and without one the status is OK (R161). -/
theorem status_eq_iff_failureCause {s t : State} (h : step s = .next t) {c : Status} (hc : c ≠ .ok) :
    t.rsp.status = c ↔ FailureCause s c := by
  constructor
  · rintro rfl
    obtain ⟨c, hcause, hstep⟩ | ⟨r, hok, hstep⟩ := step_fails_with_cause_or_succeeds s <;>
      obtain rfl := next_inj.mp (hstep.symm.trans h)
    · exact hcause
    · exact (hc hok).elim
  · intro hcause
    obtain rfl := next_inj.mp ((step_of_failureCause hcause).symm.trans h)
    rfl

/-- Settles O5: a step is a failure, which carries nothing, or a success. -/
theorem everyRequestIsAnswered : Obligations.EveryRequestIsAnswered := by
  unfold Obligations.EveryRequestIsAnswered
  intro s
  obtain ⟨c, -, hstep⟩ | ⟨r, hok, hstep⟩ := step_fails_with_cause_or_succeeds s
  · exact ⟨failRsp c, hstep, .inr ⟨rfl, rfl, rfl, rfl⟩⟩
  · exact ⟨r, hstep, .inl hok⟩

/-- Settles O18: the status is that of the one cause that holds, and a failure carries nothing, as every answer
without OK does. -/
theorem failureCausesAreExact : Obligations.FailureCausesAreExact := by
  unfold Obligations.FailureCausesAreExact
  intro s t blk h hlen hblk
  obtain rfl := eq_blockField hlen hblk
  have hcause {c : Status} : c ≠ .ok → (t.rsp.status = c ↔ FailureCause s c) := status_eq_iff_failureCause h
  refine ⟨hcause (by decide), hcause (by decide), hcause (by decide), hcause (by decide), hcause (by decide),
    fun hfail => ?_⟩
  obtain ⟨r, hstep, hr⟩ := everyRequestIsAnswered s
  obtain rfl := next_inj.mp (hstep.symm.trans h)
  exact hr.resolve_left hfail

end Sys2Proof.Machine

/-! ## Proofs: the port and the step (10_state.md R29, 30_encoding.md R60, 60_exceptions.md R163) -/

namespace Sys2Proof.Machine
open Sys2Proof.Claims

theorem decode_of_decodeTableWord {nbits w : Nat} {i : Instr} (h : decodeTableWord nbits w = some i) :
    decode (tableReq nbits w) = .ok i := by
  rw [decodeTableWord, decodeBytes_unpackBytes] at h
  cases hd : decode (tableReq nbits w) with
  | ok j => simpa [hd] using h
  | error e => simp [hd] at h

theorem tableReq_getLsbD {b : Nat} (hb : b < 136) (nbits w : Nat) :
    (tableReq nbits w).getLsbD b = (decide (b < nbits) && w.testBit b) := by
  rw [tableReq, BitVec.getLsbD_ofNat, Nat.testBit_mod_two_pow]
  simp [hb]

/-- Settles O3: a step is the decoder's answer, run or raised. -/
theorem stepRunsDecodedRequest : Obligations.StepRunsDecodedRequest := by
  unfold Obligations.StepRunsDecodedRequest
  exact ⟨fun _ _ h => step_of_decode_ok h, fun s _ h => (step_of_decode_error h).trans (raise_eq .illegalOp s)⟩

/-- Settles O4: the port holds the table word's bits, and the byte form that the table's decoder reads spells them. -/
theorem tableWordRunsAsPlaced : Obligations.TableWordRunsAsPlaced := by
  unfold Obligations.TableWordRunsAsPlaced
  intro s nbits w
  exact ⟨rfl, rfl, fun b hb => tableReq_getLsbD hb nbits w,
    fun i h => step_of_decode_ok (decode_of_decodeTableWord h)⟩

/-- Settles O1: the all-zero word on the port is no operation, and its answer is what stands on the outputs. -/
theorem resetOutputsAnswerThePort : Obligations.ResetOutputsAnswerThePort := by
  unfold Obligations.ResetOutputsAnswerThePort
  have hunassigned : Unassigned State.reset.cfg (op State.reset.req) := .inl rfl
  exact ⟨(step_of_unassigned hunassigned).trans (raise_eq .illegalOp _), rfl, rfl, rfl⟩

/-- Settles O7: the answer depends on the port and the parameter alone, and a step changes neither. -/
theorem answeredStateIsSettled : Obligations.AnsweredStateIsSettled := by
  unfold Obligations.AnsweredStateIsSettled
  intro s t h
  obtain ⟨r, hr⟩ := step_drives_response s.req s.cfg
  obtain rfl := next_inj.mp ((hr s rfl rfl).symm.trans h)
  exact ⟨hr (s.setRsp r) rfl rfl, rfl, rfl⟩

/-! ### A run of requests (20_memory.md R49) -/

/-- A word gets the same response at the head of every run of every block built alike, and leaves a block built
alike for the rest of the run. -/
theorem serve_cons_drives_response (w : ReqWord) (c : Config) :
    ∃ r, ∀ (s : State) (ws : List ReqWord), s.cfg = c →
      serve s (w :: ws) = r :: serve ((s.setReq w).setRsp r) ws := by
  obtain ⟨r, hr⟩ := step_drives_response w c
  refine ⟨r, fun s ws hcfg => ?_⟩
  have hstep : step (s.setReq w) = .next ((s.setReq w).setRsp r) := hr _ rfl hcfg
  simp [serve, hstep]

/-- Settles O8: along the run the parameter stays, so each word gets the response it gets alone. -/
theorem runAnswersEachRequestAlone : Obligations.RunAnswersEachRequestAlone := by
  unfold Obligations.RunAnswersEachRequestAlone
  intro s ws
  induction ws generalizing s with
  | nil => exact ⟨rfl, rfl⟩
  | cons w ws ih =>
    obtain ⟨r, hr⟩ := serve_cons_drives_response w s.cfg
    obtain ⟨hrest, hlen⟩ := ih ((s.setReq w).setRsp r)
    have halone : serve { State.reset with cfg := s.cfg } [w] = [r] := hr _ [] rfl
    constructor
    · rw [hr s ws rfl, hrest, List.flatMap_cons, halone]
      rfl
    · rw [hr s ws rfl, List.length_cons, hlen, List.length_cons]

/-! ### The output invariant (R164, R116, R72, R66) -/

/-- A response without a string is proper when a failure has no payload and the index is in range. -/
theorem proper_of_no_string {r : Response} (hfail : r.status ≠ .ok → r.val = 0#32 ∧ r.idx = 0#8)
    (hidx : r.idx.toNat ≤ 16) (hlen : r.strLen = 0#8) (hstr : r.str = 0#352) : r.Proper := by
  refine ⟨fun h => (hfail h).imp_right fun hidx => ⟨hidx, hlen, hstr⟩, hidx, ?_, ?_⟩
  · rw [hlen]
    decide
  · rw [hstr, BitVec.toNat_zero]
    exact Nat.two_pow_pos _

theorem failRsp_proper (c : Status) : (failRsp c).Proper :=
  proper_of_no_string (fun _ => ⟨rfl, rfl⟩) (Nat.zero_le 16) rfl rfl

theorem okRsp_proper (v : Word) {k : Byte} (hk : k.toNat ≤ 16) : (okRsp v k).Proper :=
  proper_of_no_string (fun h => absurd rfl h) hk rfl rfl

/-- The characters fill `8 * STR_LEN` bits of `STR` (R72). -/
theorem stringRsp_proper {chars : List Byte} (hfit : chars.length ≤ 44) : (stringRsp chars).Proper := by
  have hlen : (stringRsp chars).strLen.toNat = chars.length := by
    rw [stringRsp, BitVec.toNat_ofNat]
    omega
  have hstr : (stringRsp chars).str.toNat < 2 ^ (8 * chars.length) :=
    calc packBytes chars % 2 ^ 352 ≤ packBytes chars := Nat.mod_le _ _
      _ < 256 ^ chars.length := packBytes_lt chars
      _ = 2 ^ (8 * chars.length) := by rw [Nat.pow_mul]
  exact ⟨fun h => absurd rfl h, by simp [stringRsp], hlen.trans_le hfit, hlen ▸ hstr⟩

/-- Only TLVDEC returns an index other than 0, and it lies in the block or just behind it (R116). -/
theorem idx_le_of_step_eq_returnPair {s : State} {v : Word} {k : Byte} (h : step s = returnPair v k s)
    (hop : op s.req < 8) : k.toNat ≤ 16 := by
  by_cases h0 : op s.req = 0
  · have hraise := (step_of_unassigned (.inl h0)).symm.trans h
    cases congrArg Response.status (State.setRsp_inj.mp (next_inj.mp hraise))
  by_cases h3 : op s.req = 3
  · have hok : exec (.tlvdec (blockField s.req)) s = .next (s.setRsp (okRsp v k)) :=
      (step_of_op_eq_three h3).symm.trans h
    obtain ⟨-, -, hle⟩ := tlvSuccessRanges _ s v k (blockField_length _) hok
    exact hle
  · obtain ⟨v', hval⟩ := exists_step_eq_returnVal (s := s) (by omega)
    have hidx : 0#8 = k := congrArg Response.idx (State.setRsp_inj.mp (next_inj.mp (hval.symm.trans h)))
    simp [← hidx]

/-- Every step drives a proper response, and a string only with the formatter. -/
theorem step_drives_proper_response {s t : State} (h : step s = .next t) :
    t.rsp.Proper ∧ (s.cfg.hasFmt = false → t.rsp.strLen = 0#8 ∧ t.rsp.str = 0#352) := by
  obtain ⟨c, -, he⟩ | ⟨v, k, hop, he⟩ | ⟨chars, -, hfmt, hfit, he⟩ := step_cases s <;>
    obtain rfl := next_inj.mp (he.symm.trans h)
  · exact ⟨failRsp_proper c, fun _ => ⟨rfl, rfl⟩⟩
  · exact ⟨okRsp_proper v (idx_le_of_step_eq_returnPair he hop), fun _ => ⟨rfl, rfl⟩⟩
  · exact ⟨stringRsp_proper hfit, fun hno => by simp [hfmt] at hno⟩

/-- Settles O9: the response is proper, and the formatter's two failures have causes that need the formatter. -/
theorem stepEstablishesInv : Obligations.StepEstablishesInv := by
  unfold Obligations.StepEstablishesInv
  intro s t h
  obtain ⟨hproper, hstring⟩ := step_drives_proper_response h
  obtain ⟨-, hcfg, -⟩ := answeredStateIsSettled s t h
  refine ⟨hproper, fun hno => ?_⟩
  rw [hcfg] at hno
  obtain ⟨hlen, hstr⟩ := hstring hno
  refine ⟨hlen, hstr, fun hc => ?_, fun hc => ?_⟩
  · obtain ⟨hfmt, -⟩ := (status_eq_iff_failureCause h (c := .emptyInput) (by decide)).mp hc
    simp [hno] at hfmt
  · obtain ⟨hfmt, -⟩ := (status_eq_iff_failureCause h (c := .tooLong) (by decide)).mp hc
    simp [hno] at hfmt

/-- Settles O2: the reset state is the one its own step ends in. -/
theorem resetStateMeetsInv : Obligations.ResetStateMeetsInv := by
  unfold Obligations.ResetStateMeetsInv
  obtain ⟨hstep, -⟩ := resetOutputsAnswerThePort
  exact stepEstablishesInv _ _ hstep

/-! ### The two classifiers (40_classify.md R102) -/

theorem returnVal_inj {v v' : Word} {s : State} : returnVal v s = returnVal v' s ↔ v = v' := by
  rw [returnVal_eq, returnVal_eq, next_inj, State.setRsp_inj]
  exact ⟨congrArg Response.val, fun h => h ▸ rfl⟩

/-- The guess is MifareClassic or Type2, the table never Type2, so they can agree on MifareClassic alone. -/
theorem classifyTag_eq_guessTag_iff {uidLen : Byte} {atqa : Atqa} {sak : Byte} :
    classifyTag uidLen atqa sak = guessTag uidLen ↔ ClassicRows uidLen atqa sak := by
  by_cases hlen : uidLen = 4#8
  · rw [hlen, guessTag_four, classifyTag_eq_mifareClassic_iff]
  · rw [guessTag_of_ne_four hlen]
    refine iff_of_false classifyTag_ne_type2 ?_
    rintro (⟨h, -⟩ | ⟨h, -⟩) <;> exact hlen h

/-- Settles O21: the two outcomes are the two tag types' codes. -/
theorem classifiersAgreeOnClassicRows : Obligations.ClassifiersAgreeOnClassicRows := by
  unfold Obligations.ClassifiersAgreeOnClassicRows
  intro uidLen atqa sak s
  exact returnVal_inj.trans (TagType.code_injective.eq_iff.trans classifyTag_eq_guessTag_iff)

end Sys2Proof.Machine

/-! ## Proofs: requests and responses as words and as bytes (30_encoding.md R60 to R68, 00_scope.md R7) -/

namespace Sys2Proof
open Sys2Proof.Claims Sys2Proof.Machine

/-! ### The bytes of a word (R7) -/

theorem unpackBytes_getElem? {n k : Nat} (hk : k < n) (w : Nat) :
    (unpackBytes n w)[k]? = some (BitVec.ofNat 8 (w / 2 ^ (8 * k))) := by
  induction n generalizing k w with
  | zero => omega
  | succ n ih =>
    cases k with
    | zero => simp [unpackBytes]
    | succ k =>
      have hdiv : w / 256 / 2 ^ (8 * k) = w / 2 ^ (8 * (k + 1)) := by
        rw [Nat.div_div_eq_div_mul, Nat.mul_add, Nat.add_comm, Nat.pow_add]
      rw [unpackBytes, List.getElem?_cons_succ, ih (by omega), hdiv]

/-- A list is the byte form of a word when each of its bytes is the word's byte at that place. -/
theorem eq_unpackBytes {w n : Nat} {x : BitVec w} {bs : List Byte} (hlen : bs.length = n)
    (h : ∀ k < n, bs[k]? = some (x.extractLsb' (8 * k) 8)) : bs = unpackBytes n x.toNat := by
  refine List.ext_getElem?' fun k hk => ?_
  have hkn : k < n := by simpa [hlen] using hk
  rw [h k hkn, unpackBytes_getElem? hkn, BitVec.extractLsb', Nat.shiftRight_eq_div_pow]

/-- Packing the byte form of a word gives the word. -/
theorem ofNat_packBytes_unpackBytes {w n : Nat} (hw : w = 8 * n) (x : BitVec w) :
    BitVec.ofNat w (packBytes (unpackBytes n x.toNat)) = x := by
  have hlt : x.toNat < 256 ^ n := by
    have hle : 256 ^ n = 2 ^ w := by rw [hw, Nat.pow_mul]
    exact x.isLt.trans_eq hle.symm
  rw [packBytes_unpackBytes, Nat.mod_eq_of_lt hlt, BitVec.ofNat_toNat, BitVec.setWidth_eq]

/-- Unpacking a word that packs `n` bytes gives the bytes. -/
theorem unpackBytes_ofNat_packBytes {w n : Nat} (hw : w = 8 * n) {bs : List Byte} (hlen : bs.length = n) :
    unpackBytes n (BitVec.ofNat w (packBytes bs)).toNat = bs := by
  have hlt : packBytes bs < 2 ^ w := by
    rw [hw, Nat.pow_mul, ← hlen]
    exact packBytes_lt bs
  rw [BitVec.toNat_ofNat, Nat.mod_eq_of_lt hlt, ← hlen, unpackBytes_packBytes]

/-- A field of a field is a field of the word. -/
theorem extractLsb'_extractLsb' {w lo len start n : Nat} (x : BitVec w) (h : start + n ≤ len) :
    (x.extractLsb' lo len).extractLsb' start n = x.extractLsb' (lo + start) n := by
  apply BitVec.eq_of_getLsbD_eq
  intro b hb
  have hin : start + b < len := by omega
  simp only [BitVec.getLsbD_extractLsb', hin, decide_true, Bool.true_and, Nat.add_assoc]

theorem blockField_eq_unpackBytes (w : ReqWord) : blockField w = unpackBytes 16 (w.extractLsb' 8 128).toNat := by
  refine eq_unpackBytes (blockField_length w) fun k hk => ?_
  rw [blockField_get w hk, extractLsb'_extractLsb' w (by omega), Nat.add_comm]

theorem dataField_eq_unpackBytes (w : ReqWord) : dataField w = unpackBytes 15 (w.extractLsb' 16 120).toNat := by
  refine eq_unpackBytes (dataField_length w) fun k hk => ?_
  rw [dataField_get w hk, extractLsb'_extractLsb' w (by omega), Nat.add_comm]

/-! ### Decoding undoes encoding (R60, R62, R63) -/

/-- `uid_len`, `n` and `len` are the lowest byte of the argument. -/
theorem byteField_encode {i : Instr} {x : BitVec 120} {b : Byte} (h : argument i = x ++ b) :
    byteField (encode i) = b := by
  rw [byteField, encode_extractLsb' i 8 8 le_rfl, h, BitVec.extractLsb'_append_eq_right]

theorem lengthField_encode {i : Instr} {x : BitVec 96} {messageLength : Word} (h : argument i = x ++ messageLength) :
    lengthField (encode i) = messageLength := by
  rw [lengthField, encode_extractLsb' i 8 32 le_rfl, h, BitVec.extractLsb'_append_eq_right]

theorem atqaField_encode_classify (uidLen : Byte) (atqa : Atqa) (sak : Byte) :
    atqaField (encode (.classify uidLen atqa sak)) = atqa := by
  rw [atqaField, encode_extractLsb' _ 16 16 (by decide), argument, BitVec.extractLsb'_append_eq_of_le le_rfl,
    BitVec.extractLsb'_append_eq_right]

theorem sakField_encode_classify (uidLen : Byte) (atqa : Atqa) (sak : Byte) :
    sakField (encode (.classify uidLen atqa sak)) = sak := by
  rw [sakField, encode_extractLsb' _ 32 8 (by decide), argument, BitVec.extractLsb'_append_eq_of_le (by decide),
    BitVec.extractLsb'_append_eq_of_le (by decide), BitVec.extractLsb'_append_eq_right]

theorem blockField_encode {i : Instr} {blk : List Byte} (hlen : blk.length = 16)
    (h : argument i = BitVec.ofNat 128 (packBytes blk)) : blockField (encode i) = blk := by
  rw [blockField_eq_unpackBytes, encode_extractLsb' i 8 128 le_rfl, BitVec.extractLsb'_eq_self, h,
    unpackBytes_ofNat_packBytes rfl hlen]

theorem dataField_encode {i : Instr} {data : List Byte} {len : Byte} (hlen : data.length = 15)
    (h : argument i = BitVec.ofNat 120 (packBytes data) ++ len) : dataField (encode i) = data := by
  rw [dataField_eq_unpackBytes, encode_extractLsb' i 16 120 (by decide), h, BitVec.extractLsb'_append_eq_left,
    unpackBytes_ofNat_packBytes rfl hlen]

/-- The fields of each format stand in the argument where the decoder reads them. -/
theorem decode_encode {i : Instr} (h : i.wellFormed = true) : decode (encode i) = .ok i := by
  have hop : opField (encode i) = opcode i := opField_encode i
  cases i with
  | classify uidLen atqa sak =>
    rw [decode_classify hop, byteField_encode rfl, atqaField_encode_classify, sakField_encode_classify]
  | guess uidLen => rw [decode_guess hop, byteField_encode rfl]
  | tlvdec blk => rw [decode_tlvdec hop, blockField_encode (beq_iff_eq.mp h) rfl]
  | ulsize messageLength => rw [decode_ulsize hop, lengthField_encode rfl]
  | mcsize messageLength => rw [decode_mcsize hop, lengthField_encode rfl]
  | isfirst n => rw [decode_isfirst hop, byteField_encode rfl]
  | istrail n => rw [decode_istrail hop, byteField_encode rfl]
  | fmtuid len data => rw [decode_fmtuid hop, byteField_encode rfl, dataField_encode (beq_iff_eq.mp h) rfl]
  | fmtbytes len data => rw [decode_fmtbytes hop, byteField_encode rfl, dataField_encode (beq_iff_eq.mp h) rfl]

/-- Settles O12: the word form field by field, and the byte form spells that word. -/
theorem decodeUndoesEncode : Obligations.DecodeUndoesEncode := by
  unfold Obligations.DecodeUndoesEncode
  intro i h
  exact ⟨decode_encode h, (decodeBytes_unpackBytes (encode i)).trans (decode_encode h)⟩

/-! ### Encoding restores the fields (R63, R65) -/

theorem zero_append_eq_setWidth (m n : Nat) (x : BitVec n) : 0#m ++ x = x.setWidth (m + n) := by
  apply BitVec.eq_of_toNat_eq
  rw [BitVec.toNat_append, BitVec.toNat_setWidth_of_le (Nat.le_add_left n m)]
  simp

theorem setWidth_append_eq_setWidth {k n : Nat} (m : Nat) (x : BitVec k) (y : BitVec n) :
    x.setWidth m ++ y = (x ++ y).setWidth (m + n) := by
  rw [BitVec.setWidth_append_of_eq rfl, BitVec.setWidth_eq]

theorem argument_classify (uidLen : Byte) (atqa : Atqa) (sak : Byte) :
    argument (.classify uidLen atqa sak) = (sak ++ atqa ++ uidLen).setWidth 128 := by
  rw [argument, zero_append_eq_setWidth, setWidth_append_eq_setWidth, setWidth_append_eq_setWidth]

/-- The three fields of format C are adjacent (R63). -/
theorem classify_fields_adjacent (w : ReqWord) :
    sakField w ++ atqaField w ++ byteField w = w.extractLsb' 8 32 := by
  have hhigh : sakField w ++ atqaField w = w.extractLsb' 16 24 :=
    BitVec.extractLsb'_append_extractLsb'_eq_extractLsb' rfl
  rw [hhigh]
  exact BitVec.extractLsb'_append_extractLsb'_eq_extractLsb' rfl

/-- The fields of format F fill the argument (R63). -/
theorem formatter_fields_adjacent (w : ReqWord) :
    BitVec.ofNat 120 (packBytes (dataField w)) ++ byteField w = w.extractLsb' 8 128 := by
  rw [dataField_eq_unpackBytes, ofNat_packBytes_unpackBytes (w := 120) rfl]
  exact BitVec.extractLsb'_append_extractLsb'_eq_extractLsb' rfl

/-- A decoded instruction's argument is the part of the word's argument that its format fills (R63). -/
theorem argument_of_decode {w : ReqWord} {i : Instr} (h : decode w = .ok i) :
    argument i = (w.extractLsb' 8 (formatBits i - 8)).setWidth 128 := by
  rcases decode_cases w with ⟨-, hd⟩ | ⟨-, hd⟩ | ⟨-, hd⟩ | ⟨-, hd⟩ | ⟨-, hd⟩ | ⟨-, hd⟩ | ⟨-, hd⟩ |
    ⟨-, hd⟩ | ⟨-, hd⟩ | ⟨-, hd⟩ <;> cases hd.symm.trans h
  · rw [argument_classify, classify_fields_adjacent]
    rfl
  · exact zero_append_eq_setWidth 120 8 _
  · rw [argument, blockField_eq_unpackBytes, ofNat_packBytes_unpackBytes (w := 128) rfl]
    exact (BitVec.setWidth_eq _).symm
  · exact zero_append_eq_setWidth 96 32 _
  · exact zero_append_eq_setWidth 96 32 _
  · exact zero_append_eq_setWidth 120 8 _
  · exact zero_append_eq_setWidth 120 8 _
  · exact (formatter_fields_adjacent w).trans (BitVec.setWidth_eq _).symm
  · exact (formatter_fields_adjacent w).trans (BitVec.setWidth_eq _).symm

theorem eight_le_formatBits (i : Instr) : 8 ≤ formatBits i := by
  cases i <;> simp [formatBits]

/-- Settles O13: below bit 8 the opcode, above it the part of the argument that the format fills. -/
theorem encodeRestoresFields : Obligations.EncodeRestoresFields := by
  unfold Obligations.EncodeRestoresFields
  intro w i h b hb
  have hmin : 8 ≤ formatBits i := eight_le_formatBits i
  rw [encode_getLsbD]
  split
  · next hlow =>
    have hin : b < formatBits i := by omega
    rw [opcode_eq_opField_of_decode h, opField, BitVec.getLsbD_extractLsb']
    simp [hlow, hin]
  · next hhigh =>
    have hplace : 8 + (b - 8) = b := by omega
    have harg : b - 8 < 128 := by omega
    have hfield : b - 8 < formatBits i - 8 ↔ b < formatBits i := by omega
    rw [argument_of_decode h, BitVec.getLsbD_setWidth, BitVec.getLsbD_extractLsb', hplace]
    simp only [harg, hfield, decide_true, Bool.true_and]

/-! ### The opcode map and the length of a request (R60, R62, R73) -/

theorem wellFormed_of_decode {w : ReqWord} {i : Instr} (h : decode w = .ok i) : i.wellFormed = true := by
  rcases decode_cases w with ⟨-, hd⟩ | ⟨-, hd⟩ | ⟨-, hd⟩ | ⟨-, hd⟩ | ⟨-, hd⟩ | ⟨-, hd⟩ | ⟨-, hd⟩ |
    ⟨-, hd⟩ | ⟨-, hd⟩ | ⟨-, hd⟩ <;> cases hd.symm.trans h
  all_goals simp [Instr.wellFormed, blockSize, fmtMax]

/-- Every rejected word has an opcode that is no row (R66). -/
theorem op_of_decode_error {w : ReqWord} {e : Reject} (h : decode w = .error e) : op w = 0 ∨ 10 ≤ op w := by
  rcases decode_cases w with ⟨-, hd⟩ | ⟨-, hd⟩ | ⟨-, hd⟩ | ⟨-, hd⟩ | ⟨-, hd⟩ | ⟨-, hd⟩ | ⟨-, hd⟩ |
    ⟨-, hd⟩ | ⟨-, hd⟩ | ⟨hop, hd⟩ <;> cases hd.symm.trans h
  exact hop.imp_left (op_eq_iff (by decide)).mpr

/-- Settles O11: what is rejected is no row, and what decodes has the opcode of its row. -/
theorem opcodeMapIsExact : Obligations.OpcodeMapIsExact := by
  unfold Obligations.OpcodeMapIsExact
  refine fun w => ⟨fun hrow => ?_, decode_of_op_not_row, fun i h => ?_⟩
  · cases hd : decode w with
    | ok i => exact ⟨i, rfl⟩
    | error e =>
      have := op_of_decode_error hd
      omega
  · exact ⟨wellFormed_of_decode h, (op_eq_opcode_of_decode h).symm⟩

/-- Settles O14: seventeen bytes of a word are its byte form. -/
theorem requestIsSeventeenBytes : Obligations.RequestIsSeventeenBytes := by
  unfold Obligations.RequestIsSeventeenBytes
  refine ⟨fun bs w hlen hbytes => ?_, fun bs hlen => if_neg hlen⟩
  rw [eq_unpackBytes hlen hbytes, decodeBytes_unpackBytes]

/-- Settles O10: the decoder evaluated on each word. -/
theorem sampleWordsDecode : Obligations.SampleWordsDecode := by
  unfold Obligations.SampleWordsDecode
  decide +kernel

end Sys2Proof

namespace Sys2Proof.Machine

theorem Response.word_status (r : Response) : r.word.extractLsb' 0 8 = r.status.code :=
  BitVec.extractLsb'_append_eq_right

theorem Response.word_val (r : Response) : r.word.extractLsb' 8 32 = r.val :=
  (BitVec.extractLsb'_append_eq_of_le le_rfl).trans BitVec.extractLsb'_append_eq_right

theorem Response.word_idx (r : Response) : r.word.extractLsb' 40 8 = r.idx :=
  (BitVec.extractLsb'_append_eq_of_le (by decide)).trans BitVec.extractLsb'_append_eq_left

/-- The bytes of `VAL` stand in the response word from bit 8 on. -/
theorem Response.word_val_byte (r : Response) {lo : Nat} (h : lo + 8 ≤ 32) :
    r.val.extractLsb' lo 8 = r.word.extractLsb' (8 + lo) 8 := by
  rw [← r.word_val, extractLsb'_extractLsb' _ h]

/-- The byte form of a response (R61). -/
theorem Response.bytes_eq (r : Response) :
    r.bytes = [r.word.extractLsb' 0 8, r.val.extractLsb' 0 8, r.val.extractLsb' 8 8, r.val.extractLsb' 16 8,
      r.val.extractLsb' 24 8, r.idx] := by
  refine Eq.symm (eq_unpackBytes (x := r.word) rfl fun k (hk : k < 6) => ?_)
  match k, hk with
  | 0, _ => rfl
  | 1, _ | 2, _ | 3, _ | 4, _ => exact congrArg some (r.word_val_byte (by decide))
  | 5, _ => exact congrArg some r.word_idx.symm

/-- Settles O15: the fields stand side by side, and the bytes are cut from the word at the fields' bounds. -/
theorem responseWordLayout : Obligations.ResponseWordLayout := by
  unfold Obligations.ResponseWordLayout
  refine fun r => ⟨r.word_val, r.word_idx, ?_, r.bytes_eq⟩
  rw [r.word_status]
  cases r.status <;> rfl

end Sys2Proof.Machine
